-- ==== Sys2Proof/Word.lean ====
section
/-! DEFINITION. The words of the block: the command header, the frame payload and the line identifier
(30_encoding R100, R106; 00_scope R8, R10). -/

namespace Sys2Proof

/-- The command header `CMD_HDR[63:0]` (30_encoding R100). -/
abbrev Header := BitVec 64

/-- The frame payload `CMD_FRAME`: the spec's bus has `2·WMAX` wires with `WMAX ≤ 255` (30_encoding R100,
00_scope R8), so 510 wires hold it for every `WMAX`; the wires above `2·WMAX` carry nothing. -/
abbrev Payload := BitVec 510

/-- A backend line identifier, `LINE_BITS = 8` (00_scope R8, 20_memory R79). -/
abbrev LineId := BitVec 8

end Sys2Proof
end

