-- ==== Sys2Proof/Syntax.lean ====
section
/-! DEFINITION. The eight commands, one constructor per row of spec/opcode_table.json, with the operands their
encodings carry (30_encoding R101, R109). -/

namespace Sys2Proof

/-- A command of the block, the unit the spec calls an instruction (00_scope R15). -/
inductive Instr where
  /-- INIT (40_init R130): `PWR_EN`, `WARN`, `WIDTH`, `DATA_LINE`, `STCP_LINE`, `SHCP_LINE`, `PWR_LINE`. -/
  | init (pwrEn warn : Bool) (width : BitVec 8) (dataLine stcpLine shcpLine pwrLine : LineId)
  /-- SET_BIT (41_bit_protocol R140): the bit symbol `BSYM`, which may be an invalid one. -/
  | setBit (bsym : BitVec 2)
  /-- SHIFT (41_bit_protocol R141). -/
  | shift
  /-- CLEAR_DATA (41_bit_protocol R142). -/
  | clearData
  /-- LOAD_FRAME (41_bit_protocol R143): `LEN` and the payload. -/
  | loadFrame (len : BitVec 8) (payload : Payload)
  /-- STORE (41_bit_protocol R145). -/
  | store
  /-- CLEAR (42_clear_release R160). -/
  | clear
  /-- RELEASE (42_clear_release R164). -/
  | release
  deriving DecidableEq, Repr

end Sys2Proof
end

