-- ==== Sys2Proof/Decode.lean ====
section
/-! DEFINITION. The decoder, total on every header and payload and rejecting by name, and the encoder
(30_encoding R100 to R112). -/

namespace Sys2Proof

/-- Why a header is illegal (30_encoding R111). -/
inductive DecodeError where
  /-- `OP` is 0x0 or 0x9 to 0xF. -/
  | illegalOpcode (op : BitVec 4)
  /-- The opcode is legal, but a reserved field or a field the command does not use is not 0. -/
  | unusedFieldNotZero (op : BitVec 4)
  deriving DecidableEq, Repr

/-- One row of the opcode map (30_encoding R109). -/
structure OpRow where
  pattern : Header
  mask : Header
  deriving DecidableEq, Repr

def initRow : OpRow := ⟨0x0000_0000_0000_0001, 0xFFFF_0000_0000_003F⟩
def setBitRow : OpRow := ⟨0x0000_0000_0000_0002, 0xFFFF_FFFF_FFFF_FFCF⟩
def shiftRow : OpRow := ⟨0x0000_0000_0000_0003, 0xFFFF_FFFF_FFFF_FFFF⟩
def clearDataRow : OpRow := ⟨0x0000_0000_0000_0004, 0xFFFF_FFFF_FFFF_FFFF⟩
def loadFrameRow : OpRow := ⟨0x0000_0000_0000_0005, 0xFFFF_FFFF_FFFF_00FF⟩
def storeRow : OpRow := ⟨0x0000_0000_0000_0006, 0xFFFF_FFFF_FFFF_FFFF⟩
def clearRow : OpRow := ⟨0x0000_0000_0000_0007, 0xFFFF_FFFF_FFFF_FFFF⟩
def releaseRow : OpRow := ⟨0x0000_0000_0000_0008, 0xFFFF_FFFF_FFFF_FFFF⟩

/-- The opcode map, in the order of 30_encoding R109. -/
def opcodeTable : List OpRow :=
  [initRow, setBitRow, shiftRow, clearDataRow, loadFrameRow, storeRow, clearRow, releaseRow]

/-- The row a command is encoded by. -/
def rowOf : Instr → OpRow
  | .init _ _ _ _ _ _ _ => initRow
  | .setBit _ => setBitRow
  | .shift => shiftRow
  | .clearData => clearDataRow
  | .loadFrame _ _ => loadFrameRow
  | .store => storeRow
  | .clear => clearRow
  | .release => releaseRow

/-- "A header `H` encodes mnemonic `m` exactly when `(H AND mask_m) = match_m`" (30_encoding R109). -/
def fitsRow (r : OpRow) (h : Header) : Bool := h &&& r.mask == r.pattern

/-- `OP = H[3:0]` (30_encoding R102). -/
def opOf (h : Header) : BitVec 4 := h.extractLsb' 0 4
/-- `BSYM = H[5:4]` (30_encoding R101, R103). -/
def bsymOf (h : Header) : BitVec 2 := h.extractLsb' 4 2
/-- `PWR_EN = H[6]` (30_encoding R104). -/
def pwrEnOf (h : Header) : Bool := h.getLsbD 6
/-- `WARN = H[7]` (30_encoding R104). -/
def warnOf (h : Header) : Bool := h.getLsbD 7
/-- `H[15:8]`: `WIDTH` of INIT, `LEN` of LOAD_FRAME (30_encoding R105). -/
def countOf (h : Header) : BitVec 8 := h.extractLsb' 8 8
/-- `DATA_LINE = H[23:16]` (30_encoding R106). -/
def dataLineOf (h : Header) : LineId := h.extractLsb' 16 8
/-- `STCP_LINE = H[31:24]` (30_encoding R106). -/
def stcpLineOf (h : Header) : LineId := h.extractLsb' 24 8
/-- `SHCP_LINE = H[39:32]` (30_encoding R106). -/
def shcpLineOf (h : Header) : LineId := h.extractLsb' 32 8
/-- `PWR_LINE = H[47:40]` (30_encoding R106). -/
def pwrLineOf (h : Header) : LineId := h.extractLsb' 40 8

/-- The opcodes of 30_encoding R109 are 0x1 to 0x8. -/
def legalOp (op : BitVec 4) : Bool := decide (1 ≤ op.toNat ∧ op.toNat ≤ 8)

/-- The decoder (30_encoding R109 to R112): total, every header is one row's command or illegal. Only LOAD_FRAME
takes the payload (R100). -/
def decode (h : Header) (p : Payload) : Except DecodeError Instr :=
  if fitsRow initRow h then
    .ok (.init (pwrEnOf h) (warnOf h) (countOf h) (dataLineOf h) (stcpLineOf h) (shcpLineOf h) (pwrLineOf h))
  else if fitsRow setBitRow h then .ok (.setBit (bsymOf h))
  else if fitsRow shiftRow h then .ok .shift
  else if fitsRow clearDataRow h then .ok .clearData
  else if fitsRow loadFrameRow h then .ok (.loadFrame (countOf h) p)
  else if fitsRow storeRow h then .ok .store
  else if fitsRow clearRow h then .ok .clear
  else if fitsRow releaseRow h then .ok .release
  else if legalOp (opOf h) then .error (.unusedFieldNotZero (opOf h))
  else .error (.illegalOpcode (opOf h))

/-- The header's fields joined, the reserved field first (30_encoding R101). -/
def headerWord (pwrLine shcpLine stcpLine dataLine : LineId) (count : BitVec 8) (warn pwrEn : Bool)
    (bsym : BitVec 2) (op : BitVec 4) : Header :=
  (0#16 ++ pwrLine ++ shcpLine ++ stcpLine ++ dataLine ++ count ++ BitVec.ofBool warn ++ BitVec.ofBool pwrEn
    ++ bsym ++ op).cast rfl

/-- The encoder: header and payload of a command (30_encoding R101, R109). -/
def encode : Instr → Header × Payload
  | .init pwrEn warn width dataLine stcpLine shcpLine pwrLine =>
    (headerWord pwrLine shcpLine stcpLine dataLine width warn pwrEn 0 1, 0)
  | .setBit bsym => (headerWord 0 0 0 0 0 false false bsym 2, 0)
  | .shift => (headerWord 0 0 0 0 0 false false 0 3, 0)
  | .clearData => (headerWord 0 0 0 0 0 false false 0 4, 0)
  | .loadFrame len payload => (headerWord 0 0 0 0 len false false 0 5, payload)
  | .store => (headerWord 0 0 0 0 0 false false 0 6, 0)
  | .clear => (headerWord 0 0 0 0 0 false false 0 7, 0)
  | .release => (headerWord 0 0 0 0 0 false false 0 8, 0)

/-- The payload that carries a frame: element `i` is symbol `i` at bits `2i+1:2i` (30_encoding R103, R108). -/
def payloadOf : List Bool → Payload
  | [] => 0
  | b :: f => (payloadOf f <<< 2) ||| (if b then 1 else 0)

/-- What the payload bus of `2·WMAX` wires carries of a value (30_encoding R100). -/
def busPayload (wmax : Nat) (p : Payload) : Payload := BitVec.ofNat 510 (p.toNat % 2 ^ (2 * wmax))

/-- The header of a table word of `nbits` bits: its first 64 bits, the bits above `nbits` zero. -/
def tableHeader (nbits w : Nat) : Header := BitVec.ofNat 64 (w % 2 ^ nbits)

/-- The payload of a table word of `nbits` bits: its bits above the header, the bits above `nbits` zero. -/
def tablePayload (nbits w : Nat) : Payload := BitVec.ofNat 510 (w % 2 ^ nbits / 2 ^ 64)

/-- What the decoder reads from a command whose bits are `w`, numbered as spec/opcode_table.json numbers them. -/
def decodeTableWord (nbits w : Nat) : Option Instr :=
  match decode (tableHeader nbits w) (tablePayload nbits w) with
  | .ok i => some i
  | .error _ => none

end Sys2Proof
end

