-- ==== Sys2Proof/Config.lean ====
section
/-! DEFINITION. What the spec leaves open and the model does not choose: constants with no body. -/

namespace Sys2Proof

/-- The backend's answer to one transaction (20_memory R72). -/
inductive Answer where
  | ok
  | err
  deriving DecidableEq, Repr

/-- FREE VALUE (log entry 1): what the answer port shows at the clock edge with this number, when a request is
outstanding and `State.draws` says nothing more: `none` is `RSP_VALID = 0`, `some a` the answer `a`. An oracle
draw under no law, latency included (20_memory R71, R73; 93_implementation_defined I17, I18). -/
opaque Config.freeRsp : Nat → Option Answer

/-- OPEN parameter `HOLD_UNIT` (00_scope R8, 45_host_sequencer R182), counted in idle clock cycles (log entry 2). -/
opaque Config.holdUnit : Nat

/-- OPEN parameter `SHUTDOWN_HOLD` (00_scope R8, 45_host_sequencer R193). -/
opaque Config.shutdownHold : Nat

end Sys2Proof
end

