-- ==== Sys2Proof/Machine/State.lean ====
section
/-! DEFINITION. The state of the system: the block's registers, its input ports, the attached device, the host,
the parameters and the trace. Plain data. -/

namespace Sys2Proof.Machine

/-- `LIFE[1:0]` (10_state R33). The code 3 is never written, so it has no name here. -/
inductive Life where
  | unconfigured
  | ready
  | released
  deriving DecidableEq, Repr

/-- The status codes (60_exceptions R220). Codes 7 to 15 are never produced and have no name. -/
inductive Status where
  | ok
  | configError
  | invalidBit
  | backendIo
  | frameLength
  | stateError
  | illegalCmd
  deriving DecidableEq, Repr

/-- What a line shadow says (00_scope R12, 10_state R51): driven low, driven high, unknown, unclaimed. -/
inductive Level where
  | low
  | high
  | x
  | u
  deriving DecidableEq, Repr

/-- A cell or line level of the device model (00_scope R12, 20_memory R88): 0, 1, or X, every value possible. -/
inductive Cell where
  | zero
  | one
  | x
  deriving DecidableEq, Repr

/-- The line roles (00_scope R13). -/
inductive Role where
  | data
  | shcp
  | stcp
  | pwr
  deriving DecidableEq, Repr

/-- A transaction of `SEQ` (10_state R47, 20_memory R72 to R75). -/
inductive Txn where
  /-- `Configure(r)`. -/
  | configure (role : Role)
  /-- `Write(r, v)`. -/
  | write (role : Role) (val : Bool)
  /-- `ReleaseAll()`. -/
  | releaseAll
  deriving DecidableEq, Repr

/-- The open parameter `PWR_Q_EFFECT` (00_scope R8, 20_memory R92). -/
inductive PwrQEffect where
  | hold
  | unknown
  deriving DecidableEq, Repr

/-- The registers of the block, all of them (10_state R30). -/
structure Regs where
  /-- `LIFE`, R33. -/
  life : Life
  /-- `BUSY`, R34. -/
  busy : Bool
  /-- `CLAIMED`, R35. -/
  claimed : Bool
  /-- `LAST_STATUS`, R36. -/
  lastStatus : Status
  /-- `CFG_DATA_LINE`, R37. -/
  cfgDataLine : LineId
  /-- `CFG_STCP_LINE`, R38. -/
  cfgStcpLine : LineId
  /-- `CFG_SHCP_LINE`, R39. -/
  cfgShcpLine : LineId
  /-- `CFG_PWR_LINE`, R40. -/
  cfgPwrLine : LineId
  /-- `CFG_PWR_EN`, R41. -/
  cfgPwrEn : Bool
  /-- `CFG_WIDTH`, R42. -/
  cfgWidth : BitVec 8
  /-- `CFG_WARN`, R43. -/
  cfgWarn : Bool
  /-- `CUR_OP`, R45. -/
  curOp : BitVec 4
  /-- `FBUF[0..WMAX-1]`, R46. -/
  fbuf : List Bool
  /-- `CUR_BIT`, R46. -/
  curBit : Bool
  /-- `SEQ`, R47. -/
  seq : List Txn
  /-- `K`, R48. -/
  k : Nat
  /-- `REL_ERR`, R49. -/
  relErr : Bool
  /-- `LVL_DATA`, R51. -/
  lvlData : Level
  /-- `LVL_SHCP`, R51. -/
  lvlShcp : Level
  /-- `LVL_STCP`, R51. -/
  lvlStcp : Level
  /-- `LVL_PWR`, R51. -/
  lvlPwr : Level
  /-- `DONE_VALID`, R54. -/
  doneValid : Bool
  /-- `DONE_STATUS`, R54. -/
  doneStatus : Status
  deriving DecidableEq, Repr

/-- The state of the attached device (20_memory R88). `DW` is the length of `sr` and `q`; stage 0, at the data
input, is the head. -/
structure Device where
  /-- `SR[0..DW-1]`, the internal shift register. -/
  sr : List Cell
  /-- `Q[0..DW-1]`, the output latch. -/
  q : List Cell
  /-- `P_DATA`. -/
  pData : Cell
  /-- `P_SHCP`. -/
  pShcp : Cell
  /-- `P_STCP`. -/
  pStcp : Cell
  /-- `P_PWR`. -/
  pPwr : Cell
  deriving DecidableEq, Repr

/-- The reset pin and the command port, as the coming edges will find them (10_state R58). -/
structure Port where
  /-- How many of the coming edges find `RST_N = 0`; at 0 the pin is 1 (log entry 3). -/
  rstLow : Nat
  /-- `CMD_VALID`. -/
  cmdValid : Bool
  /-- `CMD_HDR`. -/
  cmdHdr : Header
  /-- `CMD_FRAME`. -/
  cmdFrame : Payload
  deriving DecidableEq, Repr

/-- The parameters of 00_scope R8. No step writes them (log entry 2). -/
structure Params where
  /-- `WMAX`, 1 to 255. -/
  wmax : Nat
  /-- `PWR_Q_EFFECT`. -/
  pwrQ : PwrQEffect
  /-- `HOLD_UNIT`, in idle clock cycles. -/
  holdUnit : Nat
  /-- `SHUTDOWN_HOLD`. -/
  shutdownHold : Nat
  deriving DecidableEq, Repr

/-- A pattern direction (45_host_sequencer R180). -/
inductive Dir where
  | leftToRight
  | rightToLeft
  deriving DecidableEq, Repr

/-- The pattern methods (45_host_sequencer R186 to R190). -/
inductive Pattern where
  | fillBar (persist : Bool)
  | fillBarWalkthrough
  | barWave
  | bitRun
  | skipAcross
  deriving DecidableEq, Repr

/-- What a host program is made of (45_host_sequencer R181 to R190). DESIGN CHOICE (log entry 2): a hold duration is
a whole number; R182 asks only that it is not negative. -/
inductive HostAct where
  /-- `Check(cmd(c))`, R181 and R183: issue one command, wait for its response, stop on a status but OK. -/
  | cmd (hdr : Header) (frame : Payload)
  /-- `Hold(d)`, R182. -/
  | hold (d : Nat)
  /-- `renderFrame(F, dir, hold)`, R184. -/
  | renderFrame (f : List Bool) (dir : Dir) (hold : Nat)
  /-- `renderLit(F, dir)`, R185. -/
  | renderLit (f : List Bool) (dir : Dir)
  /-- A pattern call, R186 to R190. -/
  | pattern (p : Pattern) (dir : Dir) (hold : Nat)
  deriving DecidableEq, Repr

/-- The construction parameters of the host: its lines, its width and the warning toggle, the operands of its INIT
(10_state R37 to R43, 00_scope R9). -/
structure HostConfig where
  dataLine : LineId
  stcpLine : LineId
  shcpLine : LineId
  /-- The power line, if there is one. -/
  pwrLine : Option LineId
  width : BitVec 8
  warn : Bool
  deriving DecidableEq, Repr

/-- Which duty the host is in (45_host_sequencer R193, R194). -/
inductive HostStage where
  /-- No host program runs; the command port is driven from outside the model. -/
  | off
  /-- The program's plan is being carried out. -/
  | running
  /-- `Shutdown()` is being carried out, after an interrupt (R193). -/
  | shutdown
  /-- The release duty (R194). -/
  | releasing
  /-- The host has ended. -/
  | exited
  deriving DecidableEq, Repr

/-- The host's state (45_host_sequencer R180, 10_state R60). -/
structure HostAgent where
  stage : HostStage
  /-- What its INIT says (R180; 70_reset_and_hazards R254 step 2). -/
  config : HostConfig
  /-- An INIT was issued in this lifetime (R195). -/
  inited : Bool
  /-- A successful INIT has not yet been followed by a RELEASE that ended with `LIFE = RELEASED`
  (70_reset_and_hazards R259). -/
  owes : Bool
  /-- The INITs whose lines a reset left claimed, the last first; each is to be issued again and released
  (70_reset_and_hazards R262). -/
  cut : List HostConfig
  /-- What is still to do: the position in the program. -/
  plan : List HostAct
  /-- A command was presented and its response has not been seen (R181). -/
  awaiting : Bool
  /-- The host does not watch `DONE_VALID`; it reads `LAST_STATUS` once `BUSY = 0`, as R195 allows. -/
  readsStatus : Bool
  /-- For a host that reads `LAST_STATUS`: how many idle edges it lets pass before it reads each coming response, the
  next first; 0 where the list ends (log entry 4). -/
  misses : List Nat
  /-- Idle cycles left of a `Hold` (R182). -/
  holdLeft : Nat
  /-- The direction of the pattern. -/
  dir : Dir
  /-- The hold duration of the pattern. -/
  hold : Nat
  /-- `W`, "copied from the block's INIT". -/
  width : Nat
  /-- `wf`, the transient working frame. -/
  wf : List Bool
  /-- An `InterruptSignal` has been delivered and not yet taken (R193). -/
  interrupt : Bool
  /-- The interrupt was taken (R193). -/
  interrupted : Bool
  /-- How often the host, owing no release, will still issue a failed RELEASE again; R194 says it "may" (log
  entry 4). -/
  retries : Nat
  /-- The status the host reports (R183). -/
  reported : Option Status
  /-- The exit status (R193). -/
  exitStatus : Option Nat
  deriving DecidableEq, Repr

/-- The whole state. -/
structure State where
  /-- The registers of the block (10_state R30). -/
  regs : Regs
  /-- The attached device (20_memory R88). -/
  dev : Device
  /-- The reset pin and the command port (10_state R58). -/
  port : Port
  /-- What `RSP_VALID` and `RSP_ERR` will show at the coming edges with a request outstanding, the next first;
  `none` is `RSP_VALID = 0` (20_memory R71, R73; 30_encoding R117 `draws`; log entry 1). -/
  draws : List (Option Answer)
  /-- The MODEL'S own counter of clock edges; it indexes `Config.freeRsp` (log entry 1). -/
  cycle : Nat
  /-- The transactions since reset, each with its answer, the first first (20_memory R77, 30_encoding R117). -/
  trace : List (Txn × Answer)
  /-- The host (45_host_sequencer R180). -/
  host : HostAgent
  /-- The parameters (00_scope R8). -/
  params : Params
  deriving DecidableEq, Repr

/-- Why a step stops the machine. -/
inductive Fault where
  /-- `BUSY = 1` while `K` is not an index of `SEQ`: there is no transaction to present (10_state R48, R55).
  Raised by `resume`. SAFE: no run reaches it, and 93_implementation_defined I11 asks for a fault where a model
  meets a state that is never written (log entry 6). -/
  | noTransaction
  deriving DecidableEq, Repr

/-- Why a step gives an instruction no meaning. -/
inductive Refusal where
  /-- An instruction whose arm of `exec` has no meaning yet; no arm is left so. SAFE. -/
  | notModelled (mnemonic : String)
  deriving DecidableEq, Repr

/-- The block's registers after reset, for a build with the given `WMAX` (70_reset_and_hazards R250). -/
def Regs.reset (wmax : Nat) : Regs where
  life := .unconfigured
  busy := false
  claimed := false
  lastStatus := .ok
  cfgDataLine := 0
  cfgStcpLine := 0
  cfgShcpLine := 0
  cfgPwrLine := 0
  cfgPwrEn := false
  cfgWidth := 0
  cfgWarn := false
  curOp := 0
  fbuf := List.replicate wmax false
  curBit := false
  seq := []
  k := 0
  relErr := false
  lvlData := .x
  lvlShcp := .x
  lvlStcp := .x
  lvlPwr := .x
  doneValid := false
  doneStatus := .ok

/-- A device of `dw` stages at power-up: every cell and every level is X (20_memory R88). -/
def Device.powerUp (dw : Nat) : Device where
  sr := List.replicate dw .x
  q := List.replicate dw .x
  pData := .x
  pShcp := .x
  pStcp := .x
  pPwr := .x

/-- The ports after reset: `RST_N = 1` and no command presented. DESIGN CHOICE (log entry 3). -/
def Port.reset : Port where
  rstLow := 0
  cmdValid := false
  cmdHdr := 0
  cmdFrame := 0

/-- No lines are given yet; the width is the host's default (00_scope R9). DESIGN CHOICE (log entry 4). -/
def HostConfig.reset : HostConfig where
  dataLine := 0
  stcpLine := 0
  shcpLine := 0
  pwrLine := none
  width := 8
  warn := false

/-- No host program runs. DESIGN CHOICE (log entry 4). -/
def HostAgent.reset : HostAgent where
  stage := .off
  config := HostConfig.reset
  inited := false
  owes := false
  cut := []
  plan := []
  awaiting := false
  readsStatus := false
  misses := []
  holdLeft := 0
  dir := .rightToLeft
  hold := 0
  width := 0
  wf := []
  interrupt := false
  interrupted := false
  retries := 0
  reported := none
  exitStatus := none

/-- `PWR_Q_EFFECT` at its default; `WMAX = 255`, the largest build. DESIGN CHOICE (log entry 2). -/
def Params.reset : Params where
  wmax := 255
  pwrQ := .hold
  holdUnit := Config.holdUnit
  shutdownHold := Config.shutdownHold

/-- The machine right after reset, with a device of 8 stages at power-up (70_reset_and_hazards R250, 20_memory
R88; log entries 1 to 4). -/
def State.reset : State where
  regs := Regs.reset 255
  dev := Device.powerUp 8
  port := Port.reset
  draws := []
  cycle := 0
  trace := []
  host := HostAgent.reset
  params := Params.reset

end Sys2Proof.Machine
end

