-- ==== Sys2Proof/Machine/Operands.lean ====
section
/-! DEFINITION. The operand forms: bit symbols, payload frames, roles and the identifiers they name, and the
transaction lists the commands are made of (30_encoding R103, R108; 10_state R55; 20_memory R76). -/

namespace Sys2Proof.Machine

/-- `Sym` (30_encoding R103): `none` is INVALID. -/
def sym (s : BitVec 2) : Option Bool :=
  if s = 0b00#2 then some false else if s = 0b01#2 then some true else none

/-- Payload symbol `i`, `P[2i+1:2i]` (30_encoding R108). -/
def payloadSym (p : Payload) (i : Nat) : BitVec 2 := p.extractLsb' (2 * i) 2

/-- No symbol `0 ≤ i < w` is INVALID (41_bit_protocol R143). -/
def frameValid (w : Nat) (p : Payload) : Bool := (List.range w).all fun i => (sym (payloadSym p i)).isSome

/-- The frame elements `0 ≤ i < w` of a valid frame (30_encoding R108). -/
def frameBits (w : Nat) (p : Payload) : List Bool :=
  (List.range w).map fun i => (sym (payloadSym p i)).getD false

/-- `line(role)` (10_state R55). -/
def Regs.line (r : Regs) : Role → LineId
  | .data => r.cfgDataLine
  | .shcp => r.cfgShcpLine
  | .stcp => r.cfgStcpLine
  | .pwr => r.cfgPwrLine

/-- The register width `W` (10_state R42). -/
def Regs.width (r : Regs) : Nat := r.cfgWidth.toNat

/-- `Pulse(r) = [Write(r,1), Write(r,0)]` (20_memory R76). -/
def pulse (r : Role) : List Txn := [.write r true, .write r false]

/-- The transactions of one frame element (41_bit_protocol R144). -/
def elemSeq (b : Bool) : List Txn :=
  [.write .data b, .write .shcp true, .write .shcp false, .write .data false]

/-- `LoadSeq(F)` (41_bit_protocol R144): the elements in order, `F[0]` first. -/
def loadSeq : List Bool → List Txn
  | [] => []
  | b :: f => elemSeq b ++ loadSeq f

/-- The zero frame `zeros(w)` (00_scope R11). -/
def zeros (w : Nat) : List Bool := List.replicate w false

/-- `ZeroSeq()` (42_clear_release R161). -/
def zeroSeq (w : Nat) : List Txn := loadSeq (zeros w)

/-- `PowerSeq()` (42_clear_release R162; 90_conflicts C4 puts the write of the data line first). -/
def powerSeq : List Txn :=
  [.write .data false, .write .pwr false, .write .pwr true, .write .shcp true, .write .shcp false]

/-- `ClearSeq()` (42_clear_release R160). -/
def clearSeq (r : Regs) : List Txn := if r.cfgPwrEn then powerSeq else zeroSeq r.width

/-- The transactions of INIT (40_init R132; the order in each group is the spec's, 92_eei_decisions D12). -/
def initSeq (pwrEn : Bool) : List Txn :=
  [.configure .data, .configure .stcp, .configure .shcp]
    ++ (if pwrEn then [.configure .pwr] else [])
    ++ [.write .stcp false, .write .shcp false, .write .data false]
    ++ (if pwrEn then [.write .pwr true] else [])

end Sys2Proof.Machine
end

