-- ==== Sys2Proof/Machine/Device.lean ====
section
/-! DEFINITION. The reference model of the attached 74HC595-family device (20_memory R86 to R97;
log entries 10 and 11). -/

namespace Sys2Proof.Machine

/-- The level a written value drives. -/
def Cell.ofBool : Bool → Cell
  | false => .zero
  | true => .one

/-- Every stage at one value. -/
def allCells (c : Cell) (l : List Cell) : List Cell := l.map fun _ => c

/-- The level of a line as the device sees it (20_memory R88). -/
def Device.level (d : Device) : Role → Cell
  | .data => d.pData
  | .shcp => d.pShcp
  | .stcp => d.pStcp
  | .pwr => d.pPwr

/-- Set the level of a line (20_memory R89). -/
def Device.setLevel (d : Device) (role : Role) (c : Cell) : Device :=
  match role with
  | .data => { d with pData := c }
  | .shcp => { d with pShcp := c }
  | .stcp => { d with pStcp := c }
  | .pwr => { d with pPwr := c }

/-- The shift event `Event(SHCP, a, b)` (20_memory R90). A rising edge moves every stage one place from the data
input, puts the data level in stage 0 and discards the last stage. -/
def Device.shiftEvent (pwrEn : Bool) (a b : Cell) (d : Device) : Device :=
  if pwrEn ∧ d.pPwr = .zero then { d with sr := allCells .zero d.sr }
  else if pwrEn ∧ d.pPwr = .x then { d with sr := allCells .x d.sr }
  else if a = .zero ∧ b = .one then { d with sr := (d.pData :: d.sr).dropLast }
  else if a = .x ∨ b = .x then { d with sr := allCells .x d.sr }
  else d

/-- The store event `Event(STCP, a, b)` (20_memory R91): all stages at once. -/
def Device.storeEvent (a b : Cell) (d : Device) : Device :=
  if a = .zero ∧ b = .one then { d with q := d.sr }
  else if a = .x ∨ b = .x then { d with q := allCells .x d.q }
  else d

/-- What a low or unknown power line does to the output latch (20_memory R92, 92_eei_decisions D23). -/
def Device.powerQ (pq : PwrQEffect) (d : Device) : Device :=
  match pq with
  | .hold => d
  | .unknown => { d with q := allCells .x d.q }

/-- The power event `Event(PWR, a, b)`, only when `CFG_PWR_EN = 1` (20_memory R92). -/
def Device.powerEvent (pq : PwrQEffect) (pwrEn : Bool) (a b : Cell) (d : Device) : Device :=
  if pwrEn then
    match b with
    | .zero => Device.powerQ pq { d with sr := allCells .zero d.sr }
    | .x => Device.powerQ pq { d with sr := allCells .x d.sr }
    | .one => if a = .x then { d with sr := allCells .x d.sr } else d
  else d

/-- `Event(role, a, b)` (20_memory R89 to R92). -/
def Device.event (pq : PwrQEffect) (pwrEn : Bool) (role : Role) (a b : Cell) (d : Device) : Device :=
  match role with
  | .data => d
  | .shcp => d.shiftEvent pwrEn a b
  | .stcp => d.storeEvent a b
  | .pwr => d.powerEvent pq pwrEn a b

/-- A line goes to a new level: `P_role` is updated, then the event is applied (20_memory R89). -/
def Device.drive (pq : PwrQEffect) (pwrEn : Bool) (role : Role) (b : Cell) (d : Device) : Device :=
  (d.setLevel role b).event pq pwrEn role (d.level role) b

/-- Every line goes to an unknown level, in the order DATA, SHCP, STCP, PWR (20_memory R89, R94). -/
def Device.floatLines (pq : PwrQEffect) (pwrEn : Bool) (d : Device) : Device :=
  (((d.drive pq pwrEn .data .x).drive pq pwrEn .shcp .x).drive pq pwrEn .stcp .x).drive pq pwrEn .pwr .x

/-- The line-level update when a transaction is answered (20_memory R89). -/
def Device.transact (pq : PwrQEffect) (pwrEn : Bool) (t : Txn) (a : Answer) (d : Device) : Device :=
  match t, a with
  | .write role v, .ok => d.drive pq pwrEn role (Cell.ofBool v)
  | .write role _, .err => d.drive pq pwrEn role .x
  | .configure role, _ => d.drive pq pwrEn role .x
  | .releaseAll, _ => d.floatLines pq pwrEn

/-- The output view `OUT[i] = Q[W-1-i]`, `0 ≤ i < W` (20_memory R95, 90_conflicts C1). -/
def Device.out (w : Nat) (d : Device) : List Cell := (d.q.take w).reverse

/-- The shift-register view `SRV[i] = SR[W-1-i]`, `0 ≤ i < W` (20_memory R96). -/
def Device.srv (w : Nat) (d : Device) : List Cell := (d.sr.take w).reverse

/-- A frame as the cells an observer sees. -/
def cellsOf (f : List Bool) : List Cell := f.map Cell.ofBool

end Sys2Proof.Machine
end

