-- ==== Sys2Proof/Machine/Flags.lean ====
section
/-! DEFINITION. Status codes, admission, shadows, and the words and wires computed from the registers (60_exceptions
R220, R222; 20_memory R81; 10_state R33, R51 to R57). The block has no condition codes (R59). -/

namespace Sys2Proof.Machine

/-- The encoding of `LIFE` (10_state R33). -/
def Life.code : Life → BitVec 2
  | .unconfigured => 0
  | .ready => 1
  | .released => 2

/-- The encoding of a shadow (10_state R51). -/
def Level.code : Level → BitVec 2
  | .low => 0b00
  | .high => 0b01
  | .x => 0b10
  | .u => 0b11

/-- The status code (60_exceptions R220). -/
def Status.code : Status → BitVec 4
  | .ok => 0
  | .configError => 1
  | .invalidBit => 2
  | .backendIo => 3
  | .frameLength => 4
  | .stateError => 5
  | .illegalCmd => 6

/-- `Admitted(op, LIFE)` (60_exceptions R222), for the opcodes of 30_encoding R109. -/
def admitted (op : BitVec 4) (l : Life) : Bool :=
  if op = 1 then decide (l ≠ .ready) else if op = 8 then true else decide (l = .ready)

/-- The admission check, then the command's own checks (60_exceptions R221). -/
def checkAdmitted (op : BitVec 4) (l : Life) (own : Status) : Status :=
  if admitted op l then own else .stateError

/-- The level a written value leaves (20_memory R81). -/
def Level.ofBool : Bool → Level
  | false => .low
  | true => .high

/-- The shadow of a role (10_state R51). -/
def Regs.lvl (r : Regs) : Role → Level
  | .data => r.lvlData
  | .shcp => r.lvlShcp
  | .stcp => r.lvlStcp
  | .pwr => r.lvlPwr

/-- Write the shadow of one role (10_state R51). -/
def Regs.setLvl (r : Regs) (role : Role) (l : Level) : Regs :=
  match role with
  | .data => { r with lvlData := l }
  | .shcp => { r with lvlShcp := l }
  | .stcp => { r with lvlStcp := l }
  | .pwr => { r with lvlPwr := l }

/-- The shadow update at an answer (20_memory R81). -/
def Regs.shadow (r : Regs) (t : Txn) (a : Answer) : Regs :=
  match t, a with
  | .write role v, .ok => r.setLvl role (Level.ofBool v)
  | .write role _, .err => r.setLvl role .x
  | .configure role, _ => r.setLvl role .x
  | .releaseAll, .ok => { r with lvlData := .u, lvlShcp := .u, lvlStcp := .u, lvlPwr := .u }
  | .releaseAll, .err => { r with lvlData := .x, lvlShcp := .x, lvlStcp := .x, lvlPwr := .x }

/-- The status word `STATUS[31:0]` (10_state R52). -/
def Regs.statusWord (r : Regs) : BitVec 32 :=
  r.lvlPwr.code ++ r.lvlStcp.code ++ r.lvlShcp.code ++ r.lvlData.code ++ r.cfgWidth ++ 0#6
    ++ BitVec.ofBool r.cfgWarn ++ BitVec.ofBool r.cfgPwrEn ++ r.lastStatus.code
    ++ BitVec.ofBool r.claimed ++ BitVec.ofBool r.busy ++ r.life.code

/-- The configuration word `CFGW[31:0]` (10_state R53). -/
def Regs.cfgWord (r : Regs) : BitVec 32 :=
  r.cfgPwrLine ++ r.cfgShcpLine ++ r.cfgStcpLine ++ r.cfgDataLine

/-- `GPIO_WARN_EN` (10_state R57). -/
def Regs.gpioWarnEn (r : Regs) : Bool := r.cfgWarn

/-- The backend request outputs (10_state R55). -/
structure Request where
  valid : Bool
  op : BitVec 2
  line : LineId
  val : Bool
  deriving DecidableEq, Repr

/-- The request outputs while no request is outstanding (10_state R55). -/
def noRequest : Request := ⟨false, 0b00, 0, false⟩

/-- The request outputs that present a transaction (10_state R55, 20_memory R72). -/
def Regs.present (r : Regs) : Txn → Request
  | .configure role => ⟨true, 0b00, r.line role, false⟩
  | .write role v => ⟨true, 0b01, r.line role, v⟩
  | .releaseAll => ⟨true, 0b10, 0, false⟩

/-- The transaction that is outstanding: `SEQ[K]` while `BUSY = 1` (10_state R48, 20_memory R71). -/
def Regs.outstanding (r : Regs) : Option Txn := if r.busy then r.seq[r.k]? else none

/-- The backend request outputs (10_state R55). -/
def Regs.request (r : Regs) : Request :=
  match r.outstanding with
  | some t => r.present t
  | none => noRequest

/-- `CMD_READY = NOT BUSY AND RST_N` (10_state R56). -/
def State.cmdReady (s : State) : Bool := !s.regs.busy && s.port.rstLow == 0

end Sys2Proof.Machine
end

