-- ==== Sys2Proof/Machine/HostReset.lean ====
section
/-! DEFINITION. What a reset of the block means for the host, and which lines it left claimed (70_reset_and_hazards
R252, R254, R258, R259, R262). -/

namespace Sys2Proof.Machine

/-- The lines an INIT with these parameters claims (40_init R131, R132). -/
def HostConfig.lines (c : HostConfig) : List LineId := [c.dataLine, c.stcpLine, c.shcpLine] ++ c.pwrLine.toList

/-- The INIT that the configuration registers hold, as the host reads it in `STATUS` and `CFGW` (10_state R52, R53;
45_host_sequencer R195). -/
def Regs.hostConfig (r : Regs) : HostConfig where
  dataLine := r.cfgDataLine
  stcpLine := r.cfgStcpLine
  shcpLine := r.cfgShcpLine
  pwrLine := if r.cfgPwrEn then some r.cfgPwrLine else none
  width := r.cfgWidth
  warn := r.cfgWarn

/-- Of the INITs whose lines a reset left claimed, those whose lines the block has not claimed anew
(70_reset_and_hazards R262). -/
def leftClaimed (r : Regs) (cut : List HostConfig) : List HostConfig :=
  if r.claimed then cut.filter fun c => !decide (c.lines ⊆ r.hostConfig.lines) else cut

/-- A reset has lost the response of an accepted command: the host waits no longer and turns to its release duty, and
reports nothing for that command. DESIGN CHOICE (log entry 4): a lost response ends the program. -/
def hostLost (h : HostAgent) : HostAgent :=
  match h.stage with
  | .running | .shutdown => { h with awaiting := false, stage := .releasing, plan := [], holdLeft := 0 }
  | .off | .releasing | .exited => { h with awaiting := false }

/-- A reset of the block, given its registers before. The lifetime is over, so the host must INIT first (R254;
45_host_sequencer R195), but a command not yet accepted stays on the port (R258), be it an INIT. A release that was
owed stays owed (R259), and the lines that were claimed are to be configured anew and released (R262). DESIGN CHOICE
(log entry 4): lines count as claimed also after an INIT that failed or was cut short. -/
def hostMark (r : Regs) (p : Port) (h : HostAgent) : HostAgent :=
  { h with
    inited := h.awaiting && p.cmdValid && opOf p.cmdHdr == 1
    owes := h.owes || r.life == .ready
    cut := if r.claimed then r.hostConfig :: leftClaimed r h.cut else h.cut }

/-- The host at a reset edge. The command it waits for is either still on the port, or accepted and its response
lost: the reset met the command in flight, so that none is given (70_reset_and_hazards R252), or the command had ended
and the host had not seen its response. DESIGN CHOICE (log entry 4) for the latter: a response that stands
(`DONE_VALID = 1`) at an edge with `RST_N = 0` is not seen by a host that waits for it, nor is the `LAST_STATUS` of an
ended command by a host that reads that instead and has not read it yet; the spec does not say whether it is. -/
def hostReset (r : Regs) (p : Port) (h : HostAgent) : HostAgent :=
  if h.awaiting = true ∧ p.cmdValid = false then hostLost (hostMark r p h) else hostMark r p h

end Sys2Proof.Machine
end

