-- ==== Sys2Proof/Machine/Ops.lean ====
section
/-! DEFINITION. The command cycle: accepting a command, answering its transactions, ending it with a response or an
error, and reset (30_encoding R113 to R117, 60_exceptions R224 to R229, 70_reset_and_hazards R250 to R253). -/

namespace Sys2Proof.Machine

/-! ### On the registers -/

/-- What every edge does first: `DONE_VALID <- 0` (30_encoding R116). -/
def Regs.tick (r : Regs) : Regs := { r with doneValid := false }

/-- The last three writes of a command's end: the status and the response (10_state R36, R54). -/
def Regs.conclude (code : Status) (r : Regs) : Regs :=
  { r with lastStatus := code, doneStatus := code, doneValid := true }

/-- `raise Status(code)` (60_exceptions R224). -/
def Regs.raiseStatus (code : Status) (r : Regs) : Regs := r.conclude code

/-- `EndActions(CUR_OP, code)` (30_encoding R116): INIT on success (40_init R133), RELEASE (42_clear_release
R165), every other command none. -/
def Regs.endActions (code : Status) (r : Regs) : Regs :=
  if r.curOp = 1 ∧ code = .ok then { r with life := .ready }
  else if r.curOp = 8 then { r with life := .released, claimed := false }
  else r

/-- `respond(code)` (30_encoding R116). -/
def Regs.respond (code : Status) (r : Regs) : Regs :=
  (Regs.endActions code { r with busy := false }).conclude code

/-- `abort(code)` (60_exceptions R225; 40_init R134 for INIT). -/
def Regs.abort (code : Status) (r : Regs) : Regs :=
  let r : Regs := { r with busy := false }
  (if r.curOp = 1 then { r with life := .unconfigured } else r).conclude code

/-- `OnError(t)` (60_exceptions R225): RELEASE goes on with its `ReleaseAll` (42_clear_release R166), everything
else ends. -/
def Regs.onError (t : Txn) (r : Regs) : Regs :=
  if r.curOp = 8 ∧ t ≠ .releaseAll then { r with relErr := true, k := r.seq.length - 1 }
  else r.abort .backendIo

/-- `Answer(err)` (30_encoding R116) for the outstanding transaction `t`. -/
def Regs.answered (t : Txn) (a : Answer) (r : Regs) : Regs :=
  let r := r.shadow t a
  match a with
  | .ok =>
    if r.k + 1 < r.seq.length then { r with k := r.k + 1 }
    else r.respond (if r.relErr then .backendIo else .ok)
  | .err => r.onError t

/-- `Accept(H, P)` (30_encoding R114; log entry 9), given the opcode, the result of `Validate` and the command's
`Prepare`. -/
def Regs.accept (op : BitVec 4) (code : Status) (prepare : Regs → Regs) (r : Regs) : Regs :=
  let r : Regs := { r with relErr := false }
  if code = .ok then
    let r : Regs := { prepare { r with curOp := op } with k := 0 }
    if r.seq = [] then r.respond .ok else { r with busy := true }
  else r.raiseStatus code

/-! ### One clock edge (30_encoding R116) -/

/-- An edge with no acceptance and no answer: only `DONE_VALID` falls (30_encoding R116). -/
def quietEdge (s : State) : State :=
  { s with regs := s.regs.tick, cycle := s.cycle + 1 }

/-- The edge at which the outstanding transaction is answered (30_encoding R116): the registers, the device
(20_memory R89) and the trace (R77) move. Without an outstanding transaction the answer is ignored
(60_exceptions R229). -/
def answerEdge (a : Answer) (s : State) : State :=
  match s.regs.outstanding with
  | some t =>
    { s with
      regs := s.regs.tick.answered t a
      dev := s.dev.transact s.params.pwrQ s.regs.cfgPwrEn t a
      trace := s.trace ++ [(t, a)]
      cycle := s.cycle + 1 }
  | none => quietEdge s

/-- The edge at which a command is accepted (30_encoding R114). The host then takes the command off the port
(70_reset_and_hazards R258; log entry 3). -/
def acceptEdge (op : BitVec 4) (code : Status) (prepare : Regs → Regs) (s : State) : State :=
  { s with
    regs := s.regs.tick.accept op code prepare
    port := { s.port with cmdValid := false }
    cycle := s.cycle + 1 }

/-- The edge at which an illegal header is accepted and refused with ILLEGAL_CMD (30_encoding R111). -/
def acceptIllegal (s : State) : State := acceptEdge 0 .illegalCmd id s

/-- An edge with `RST_N = 0` (70_reset_and_hazards R250): every register takes its reset value. The device is not
touched (R251), unless a command was in flight: then every line counts as unknown (R252). The trace starts anew
(log entry 8). The host learns of the reset (R254, R259, R262). -/
def resetEdge (s : State) : State :=
  { s with
    regs := Regs.reset s.params.wmax
    dev := if s.regs.busy then s.dev.floatLines s.params.pwrQ s.regs.cfgPwrEn else s.dev
    port := { s.port with rstLow := s.port.rstLow - 1 }
    trace := []
    host := hostReset s.regs s.port s.host
    cycle := s.cycle + 1 }

/-! ### The edges of a command -/

/-- What the answer port shows at the coming edge, a request being outstanding (20_memory R71, R73). -/
def State.nextRsp (s : State) : Option Answer :=
  match s.draws with
  | r :: _ => r
  | [] => Config.freeRsp s.cycle

/-- The answer port moves on. -/
def State.popRsp (s : State) : State := { s with draws := s.draws.tail }

/-- The edges of a command in flight, at most `fuel` answers: answer after answer until the command ends or the
backend does not answer at an edge (30_encoding R116, R117; log entry 5). -/
def runAnswers : Nat → State → State
  | 0, s => s
  | fuel + 1, s =>
    if s.regs.busy then
      match s.nextRsp with
      | some a => runAnswers fuel (answerEdge a s.popRsp)
      | none => quietEdge s.popRsp
    else s

/-- The command in flight goes on: its outstanding request waits for the backend (20_memory R71). -/
def resume (s : State) : Host.Outcome State Fault Refusal :=
  if s.regs.k < s.regs.seq.length then .next (runAnswers (s.regs.seq.length - s.regs.k) s)
  else .fault .noTransaction

/-- A command that is presented while `CMD_READY = 0` waits (30_encoding R114): the block is in reset or goes on
with the command in flight. -/
def waitReady (s : State) : Host.Outcome State Fault Refusal :=
  if s.port.rstLow = 0 then resume s else .next (resetEdge s)

/-- A command is presented: it is accepted and its transactions run as far as the backend answers them
(30_encoding R114, R117), or it waits. -/
def issue (accept : State → State) (s : State) : Host.Outcome State Fault Refusal :=
  if s.cmdReady then .next (runAnswers (accept s).regs.seq.length (accept s))
  else waitReady s

end Sys2Proof.Machine
end

