-- ==== Sys2Proof/Machine/BitProtocol.lean ====
section
/-! DEFINITION. The bit protocol: SET_BIT, SHIFT, CLEAR_DATA, LOAD_FRAME, STORE (41_bit_protocol R140 to R145). -/

namespace Sys2Proof.Machine

/-- The check of SET_BIT: an invalid symbol is INVALID_BIT (41_bit_protocol R140). -/
def checkSetBit (bsym : BitVec 2) : Status := if (sym bsym).isSome then .ok else .invalidBit

/-- `Prepare` for SET_BIT (41_bit_protocol R140). -/
def prepareSetBit (bsym : BitVec 2) (r : Regs) : Regs :=
  { r with curBit := (sym bsym).getD false, seq := [.write .data ((sym bsym).getD false)] }

/-- The acceptance edge of SET_BIT (41_bit_protocol R140, 60_exceptions R221). -/
def acceptSetBit (bsym : BitVec 2) (s : State) : State :=
  acceptEdge 2 (checkAdmitted 2 s.regs.life (checkSetBit bsym)) (prepareSetBit bsym) s

/-- SET_BIT, `setBit(value)` (41_bit_protocol R140). -/
def execSetBit (bsym : BitVec 2) (s : State) : Host.Outcome State Fault Refusal := issue (acceptSetBit bsym) s

/-- `Prepare` for SHIFT (41_bit_protocol R141). -/
def prepareShift (r : Regs) : Regs := { r with seq := pulse .shcp }

/-- The acceptance edge of SHIFT (41_bit_protocol R141, 60_exceptions R221). -/
def acceptShift (s : State) : State := acceptEdge 3 (checkAdmitted 3 s.regs.life .ok) prepareShift s

/-- SHIFT, `pulseShiftClock()` (41_bit_protocol R141). -/
def execShift (s : State) : Host.Outcome State Fault Refusal := issue acceptShift s

/-- `Prepare` for CLEAR_DATA (41_bit_protocol R142). -/
def prepareClearData (r : Regs) : Regs := { r with seq := [.write .data false] }

/-- The acceptance edge of CLEAR_DATA (41_bit_protocol R142, 60_exceptions R221). -/
def acceptClearData (s : State) : State := acceptEdge 4 (checkAdmitted 4 s.regs.life .ok) prepareClearData s

/-- CLEAR_DATA, `clearDataLine()` (41_bit_protocol R142). -/
def execClearData (s : State) : Host.Outcome State Fault Refusal := issue acceptClearData s

/-- The checks of LOAD_FRAME, the length before the symbols (41_bit_protocol R143, 60_exceptions R221). -/
def checkLoadFrame (len : BitVec 8) (payload : Payload) (r : Regs) : Status :=
  if len ≠ r.cfgWidth then .frameLength
  else if frameValid r.width payload then .ok
  else .invalidBit

/-- `Prepare` for LOAD_FRAME (41_bit_protocol R143): the elements `i ≥ W` of `FBUF` are not written (10_state
R46). -/
def prepareLoadFrame (payload : Payload) (r : Regs) : Regs :=
  { r with
    fbuf := frameBits r.width payload ++ r.fbuf.drop r.width
    seq := loadSeq (frameBits r.width payload) }

/-- The acceptance edge of LOAD_FRAME (41_bit_protocol R143, 60_exceptions R221). -/
def acceptLoadFrame (len : BitVec 8) (payload : Payload) (s : State) : State :=
  acceptEdge 5 (checkAdmitted 5 s.regs.life (checkLoadFrame len payload s.regs)) (prepareLoadFrame payload) s

/-- LOAD_FRAME, `loadFrame(frame)` (41_bit_protocol R143). -/
def execLoadFrame (len : BitVec 8) (payload : Payload) (s : State) : Host.Outcome State Fault Refusal :=
  issue (acceptLoadFrame len payload) s

/-- `Prepare` for STORE (41_bit_protocol R145). -/
def prepareStore (r : Regs) : Regs := { r with seq := pulse .stcp }

/-- The acceptance edge of STORE (41_bit_protocol R145, 60_exceptions R221). -/
def acceptStore (s : State) : State := acceptEdge 6 (checkAdmitted 6 s.regs.life .ok) prepareStore s

/-- STORE, `commitOutput()` (41_bit_protocol R145). -/
def execStore (s : State) : Host.Outcome State Fault Refusal := issue acceptStore s

end Sys2Proof.Machine
end

