-- ==== Sys2Proof/Machine/ClearRelease.lean ====
section
/-! DEFINITION. CLEAR and RELEASE (42_clear_release R160 to R169). -/

namespace Sys2Proof.Machine

/-- `Prepare` for CLEAR (42_clear_release R160). -/
def prepareClear (r : Regs) : Regs := { r with seq := clearSeq r }

/-- The acceptance edge of CLEAR (42_clear_release R160, 60_exceptions R221). -/
def acceptClear (s : State) : State := acceptEdge 7 (checkAdmitted 7 s.regs.life .ok) prepareClear s

/-- CLEAR, `clearRegister()` (42_clear_release R160). -/
def execClear (s : State) : Host.Outcome State Fault Refusal := issue acceptClear s

/-- The transactions of RELEASE (42_clear_release R164, 90_conflicts C6). -/
def releaseSeq (r : Regs) : List Txn :=
  if r.life = .ready then clearSeq r ++ [.releaseAll]
  else if r.claimed then [.releaseAll]
  else []

/-- `Prepare` for RELEASE (42_clear_release R164). -/
def prepareRelease (r : Regs) : Regs := { r with seq := releaseSeq r }

/-- The acceptance edge of RELEASE (42_clear_release R164, 60_exceptions R221). -/
def acceptRelease (s : State) : State := acceptEdge 8 (checkAdmitted 8 s.regs.life .ok) prepareRelease s

/-- RELEASE, `release()` (42_clear_release R164). -/
def execRelease (s : State) : Host.Outcome State Fault Refusal := issue acceptRelease s

end Sys2Proof.Machine
end

