-- ==== Sys2Proof/Machine/Init.lean ====
section
/-! DEFINITION. INIT (40_init R130 to R135). -/

namespace Sys2Proof.Machine

/-- The line identifiers an INIT uses: DATA, STCP, SHCP, and PWR when `PWR_EN = 1` (40_init R131). -/
def usedLines (pwrEn : Bool) (dataLine stcpLine shcpLine pwrLine : LineId) : List LineId :=
  [dataLine, stcpLine, shcpLine] ++ (if pwrEn then [pwrLine] else [])

/-- `ConfigCheck(H)` (40_init R131). -/
def configCheck (wmax : Nat) (pwrEn : Bool) (width : BitVec 8) (dataLine stcpLine shcpLine pwrLine : LineId) :
    Status :=
  if width.toNat < 1 ∨ wmax < width.toNat then .configError
  else if (usedLines pwrEn dataLine stcpLine shcpLine pwrLine).Nodup then .ok
  else .configError

/-- `Prepare` for INIT (40_init R132). -/
def prepareInit (pwrEn warn : Bool) (width : BitVec 8) (dataLine stcpLine shcpLine pwrLine : LineId) (r : Regs) :
    Regs :=
  { r with
    cfgWidth := width
    cfgDataLine := dataLine
    cfgStcpLine := stcpLine
    cfgShcpLine := shcpLine
    cfgPwrLine := pwrLine
    cfgPwrEn := pwrEn
    cfgWarn := warn
    claimed := true
    seq := initSeq pwrEn }

/-- The acceptance edge of INIT (40_init R130, 60_exceptions R221). -/
def acceptInit (pwrEn warn : Bool) (width : BitVec 8) (dataLine stcpLine shcpLine pwrLine : LineId) (s : State) :
    State :=
  acceptEdge 1
    (checkAdmitted 1 s.regs.life (configCheck s.params.wmax pwrEn width dataLine stcpLine shcpLine pwrLine))
    (prepareInit pwrEn warn width dataLine stcpLine shcpLine pwrLine) s

/-- INIT, `initialize(pins, width, power_pin?)` (40_init R130). -/
def execInit (pwrEn warn : Bool) (width : BitVec 8) (dataLine stcpLine shcpLine pwrLine : LineId) (s : State) :
    Host.Outcome State Fault Refusal :=
  issue (acceptInit pwrEn warn width dataLine stcpLine shcpLine pwrLine) s

end Sys2Proof.Machine
end

