-- ==== Sys2Proof/Machine/Dispatch.lean ====
section
/-! DEFINITION. One arm per command: its meaning at the command level (30_encoding R117). -/

namespace Sys2Proof.Machine

def exec (i : Instr) (s : State) : Host.Outcome State Fault Refusal :=
  match i with
  | .init pwrEn warn width dataLine stcpLine shcpLine pwrLine => Sys2Proof.Machine.execInit pwrEn warn width dataLine stcpLine shcpLine pwrLine s
  | .setBit bsym => Sys2Proof.Machine.execSetBit bsym s
  | .shift => Sys2Proof.Machine.execShift s
  | .clearData => Sys2Proof.Machine.execClearData s
  | .loadFrame len payload => Sys2Proof.Machine.execLoadFrame len payload s
  | .store => Sys2Proof.Machine.execStore s
  | .clear => Sys2Proof.Machine.execClear s
  | .release => Sys2Proof.Machine.execRelease s

end Sys2Proof.Machine
end

