-- ==== Sys2Proof/Machine/HostSequencer.lean ====
section
/-! DEFINITION. The host: its programs, and what it does at an idle clock edge (45_host_sequencer R180 to R196). -/

namespace Sys2Proof.Machine

/-! ### Frames (00_scope R11, 45_host_sequencer R184 to R190) -/

/-- The frame the block is given: `leftToRight` reverses it (R184 step 1). -/
def orient (dir : Dir) (f : List Bool) : List Bool :=
  match dir with
  | .leftToRight => f.reverse
  | .rightToLeft => f

/-- The frames a loop renders that updates the working frame at each index in turn. -/
def sweep (update : Nat → List Bool → List Bool) : List Nat → List Bool → List (List Bool)
  | [], _ => []
  | k :: ks, wf => update k wf :: sweep update ks (update k wf)

/-- The frames of the rising loop `wf[k] <- 1` (R186). -/
def risingFrames (w : Nat) : List (List Bool) := sweep (fun k wf => wf.set k true) (List.range w) (zeros w)

/-- The frames of the falling loop `wf[j] <- 0` from `ones(W)` (R187). -/
def fallingFrames (w : Nat) : List (List Bool) :=
  sweep (fun k wf => wf.set k false) (List.range w) (List.replicate w true)

/-- The frames of `bitRun` (R189). -/
def bitRunFrames (w : Nat) : List (List Bool) :=
  (List.range w).map (fun k => (zeros w).set k true) ++ [zeros w]

/-- One turn of the literal loop of `skipAcross` (R190, 92_eei_decisions D28). -/
def skipUpdate (x : Nat) (wf : List Bool) : List Bool :=
  if x % 2 = 0 then
    if 1 < x then (wf.set x true).set (x - 2) false else wf.set x true
  else wf.set x false

/-- The frames of `skipAcross` (R190). -/
def skipFrames (w : Nat) : List (List Bool) := sweep skipUpdate (List.range w) (zeros w)

/-! ### Programs -/

/-- `cmd(c)` (R181). -/
def cmdAct (i : Instr) : HostAct := .cmd (encode i).1 (encode i).2

/-- `LOAD_FRAME F`. DESIGN CHOICE (log entry 13): of a list of more than 255 elements, which no frame of 00_scope R11 is
and no `LEN` can count (30_encoding R105), `LEN` is the length modulo 256 and the payload the first 255 elements. -/
def loadInstr (f : List Bool) : Instr := .loadFrame (BitVec.ofNat 8 f.length) (payloadOf f)

/-- `renderFrame(F, dir, hold)` (R184; 90_conflicts C7). -/
def renderFrameActs (f : List Bool) (dir : Dir) (d : Nat) : List HostAct :=
  [cmdAct (loadInstr (orient dir f)), cmdAct .store, cmdAct .clear, .hold d, cmdAct .store]

/-- `renderLit(F, dir)` (R185). -/
def renderLitActs (f : List Bool) (dir : Dir) : List HostAct :=
  [cmdAct (loadInstr (orient dir f)), cmdAct .store]

/-- `fillBar(dir, hold, persist)` (R186): with `persist` the last frame stays lit. -/
def fillBarActs (w : Nat) (persist : Bool) (dir : Dir) (d : Nat) : List HostAct :=
  (risingFrames w).zipIdx.map fun (f, k) =>
    if persist ∧ k + 1 = w then .renderLit f dir else .renderFrame f dir d

/-- The program of a pattern call (R186 to R190). -/
def patternActs (w : Nat) (p : Pattern) (dir : Dir) (d : Nat) : List HostAct :=
  match p with
  | .fillBar persist => fillBarActs w persist dir d
  | .fillBarWalkthrough => fillBarActs w true dir d ++ (fallingFrames w).map fun f => .renderFrame f dir d
  | .barWave => (risingFrames w ++ fallingFrames w).map fun f => .renderFrame f dir d
  | .bitRun => (bitRunFrames w).map fun f => .renderFrame f dir d
  | .skipAcross => (skipFrames w).map fun f => .renderFrame f dir d

/-- `Shutdown()` (R193, 92_eei_decisions D30). -/
def shutdownActs (d : Nat) : List HostAct :=
  [.pattern .bitRun .leftToRight d, .pattern .bitRun .rightToLeft d, cmdAct .clear, cmdAct .store]

/-- The host's INIT (R195, 70_reset_and_hazards R254 step 2). -/
def hostInit (c : HostConfig) : Instr :=
  .init c.pwrLine.isSome c.warn c.width c.dataLine c.stcpLine c.shcpLine (c.pwrLine.getD 0)

/-- The boot order after reset, for the INIT given (70_reset_and_hazards R254 steps 2 and 3). -/
def bootActs (init : Instr) : List HostAct := [cmdAct init, cmdAct .clear, cmdAct .store]

/-- The commands an action issues when every response is OK, a pattern call's frames apart. -/
def actCmds : HostAct → List (Header × Payload)
  | .cmd h p => [(h, p)]
  | .hold _ => []
  | .renderFrame f dir d => (renderFrameActs f dir d).flatMap fun a =>
      match a with
      | .cmd h p => [(h, p)]
      | _ => []
  | .renderLit f dir => (renderLitActs f dir).flatMap fun a =>
      match a with
      | .cmd h p => [(h, p)]
      | _ => []
  | .pattern _ _ _ => []

/-- The command stream of a pattern call when every response is OK (R191). -/
def patternCmds (w : Nat) (p : Pattern) (dir : Dir) (d : Nat) : List (Header × Payload) :=
  (patternActs w p dir d).flatMap actCmds

/-! ### The host's step -/

/-- The host ends, and reports the first status that was not OK (R183); after an interrupt whose shutdown met no such
status it exits with status 0 (R193). -/
def hostExit (code : Status) (h : HostAgent) : HostAgent :=
  { h with
    stage := .exited
    plan := []
    reported := if h.reported = none ∧ code ≠ .ok then some code else h.reported
    exitStatus := if h.interrupted ∧ h.reported = none then some 0 else none }

/-- A response ends the wait (R181); the host then reads `STATUS` and `CFGW` (R195): which of the lines that a reset
left are claimed anew (70_reset_and_hazards R262), and whether a release is owed (70_reset_and_hazards R259). -/
def hostNote (r : Regs) (h : HostAgent) : HostAgent :=
  { h with
    awaiting := false
    misses := h.misses.tail
    cut := leftClaimed r h.cut
    owes := (h.owes || r.life == .ready) && !(r.life == .released && leftClaimed r h.cut == []) }

/-- The release duty is done at the response to a RELEASE (the duty's other command is an INIT, 70_reset_and_hazards
R262) with no line left that a reset left claimed, if `LIFE = RELEASED`, as 70_reset_and_hazards R259 asks after a
successful INIT; else, where no release is owed, a host that "may" try again (R194) may also not. -/
def dutyDone (life : Life) (h : HostAgent) : Bool :=
  !h.inited && h.cut == [] && (life == .released || !h.owes && h.retries == 0)

/-- The host sees the response of its command: `Check` (R183), or the release duty's answer (R194). DESIGN CHOICE
(log entry 4): what a response of the release duty says is kept for the report only where the duty ends with it; the
spec does not say whether a failure that a retry overcame is reported. -/
def hostResponse (code : Status) (life : Life) (h : HostAgent) : HostAgent :=
  match h.stage with
  | .running | .shutdown =>
    if code = .ok then h
    else { h with stage := .releasing, plan := [], holdLeft := 0, reported := some code }
  | .releasing =>
    if dutyDone life h then hostExit code h
    else { h with retries := if !h.inited && life != .released then h.retries - 1 else h.retries }
  | .off | .exited => h

/-- The status the host sees at an idle edge: that of the response at `DONE_VALID` (R181), or `LAST_STATUS`, which a
host that misses `DONE_VALID` may read instead (R195). At an idle edge the awaited command has ended: it is off the
port and `BUSY = 0`. -/
def hostSees (r : Regs) (h : HostAgent) : Option Status :=
  if h.awaiting then
    if h.readsStatus then if h.misses.headD 0 = 0 then some r.lastStatus else none
    else if r.doneValid then some r.doneStatus
    else none
  else none

/-- The host waits for its response (R181); one that reads `LAST_STATUS` may let edges pass first (R195). -/
def hostReceive (r : Regs) (h : HostAgent) : HostAgent :=
  match hostSees r h with
  | some code => hostResponse code r.life (hostNote r h)
  | none => if h.awaiting ∧ h.readsStatus then { h with misses := (h.misses.headD 0 - 1) :: h.misses.tail } else h

/-- One action of the plan is begun: the host's new state, and the command it presents. A lifetime begins with INIT and
ends with RELEASE (R195). -/
def hostBegin (pr : Params) (a : HostAct) (h : HostAgent) : HostAgent × Option (Header × Payload) :=
  match a with
  | .cmd hdr frame =>
    ({ h with
        awaiting := true
        inited := if opOf hdr = 1 then true else if opOf hdr = 8 then false else h.inited
        width := if opOf hdr = 1 then (countOf hdr).toNat else h.width }, some (hdr, frame))
  | .hold d => ({ h with holdLeft := pr.holdUnit * d }, none)
  | .renderFrame f dir d =>
    ({ h with wf := f, dir := dir, hold := d, plan := renderFrameActs f dir d ++ h.plan }, none)
  | .renderLit f dir => ({ h with wf := f, dir := dir, plan := renderLitActs f dir ++ h.plan }, none)
  | .pattern p dir d =>
    ({ h with wf := zeros h.width, dir := dir, hold := d, plan := patternActs h.width p dir d ++ h.plan }, none)

/-- An action that issues a command other than INIT and RELEASE: the host must have issued INIT in this lifetime
(R195). -/
def needsInit : HostAct → Bool
  | .cmd hdr _ => decide (opOf hdr ≠ 1 ∧ opOf hdr ≠ 8)
  | .hold _ => false
  | .renderFrame _ _ _ => true
  | .renderLit _ _ => true
  | .pattern _ _ _ => true

/-- The host follows its plan: it lets a hold pass, boots the block if the next action needs that (R195,
70_reset_and_hazards R254), with the lines a reset left claimed if there are any (70_reset_and_hazards R262), begins
the next action, or turns to its release duty at the end (R182, R194). -/
def hostFollow (pr : Params) (h : HostAgent) : HostAgent × Option (Header × Payload) :=
  if 0 < h.holdLeft then ({ h with holdLeft := h.holdLeft - 1 }, none)
  else
    match h.plan with
    | [] => ({ h with stage := .releasing }, none)
    | a :: rest =>
      if needsInit a ∧ h.inited = false then
        ({ h with plan := bootActs (hostInit (h.cut.headD h.config)) ++ a :: rest }, none)
      else hostBegin pr a { h with plan := rest }

/-- The interrupt is taken: the hold ends, the pattern is abandoned, `Shutdown()` begins (R193). -/
def hostInterrupt (pr : Params) (h : HostAgent) : HostAgent :=
  { h with
    stage := .shutdown
    plan := shutdownActs pr.shutdownHold
    holdLeft := 0
    interrupt := false
    interrupted := true }

/-- The host's release duty issues RELEASE (R194); but where nothing is claimed, first the INIT whose lines a reset
left claimed (70_reset_and_hazards R262). DESIGN CHOICE (log entry 4): `W` (R180) does not follow that INIT, since no
pattern is left to be rendered. -/
def hostRelease (claimed : Bool) (h : HostAgent) : HostAgent × Option (Header × Payload) :=
  match h.cut, claimed with
  | c :: _, false => ({ h with awaiting := true, inited := true }, some (encode (hostInit c)))
  | _, _ => ({ h with awaiting := true, inited := false }, some (encode .release))

/-- What the host does at an idle edge, no response being awaited; it reads `CLAIMED` in `STATUS` (R195). -/
def hostAct (pr : Params) (claimed : Bool) (h : HostAgent) : HostAgent × Option (Header × Payload) :=
  if h.awaiting then (h, none)
  else
    match h.stage with
    | .off | .exited => (h, none)
    | .running => if h.interrupt then (hostInterrupt pr h, none) else hostFollow pr h
    | .shutdown => hostFollow pr h
    | .releasing => hostRelease claimed h

/-- The command port when the host presents a command; it keeps it there until acceptance (70_reset_and_hazards
R258). -/
def presentCmd (c : Option (Header × Payload)) (p : Port) : Port :=
  match c with
  | some (hdr, frame) => { p with cmdValid := true, cmdHdr := hdr, cmdFrame := frame }
  | none => p

/-- An idle clock edge: `DONE_VALID` falls (30_encoding R116), and the host, which saw the response, moves. -/
def idleEdge (s : State) : State :=
  { quietEdge s with
    host := (hostAct s.params s.regs.claimed (hostReceive s.regs s.host)).1
    port := presentCmd (hostAct s.params s.regs.claimed (hostReceive s.regs s.host)).2 s.port }

end Sys2Proof.Machine
end

