-- ==== Sys2Proof/Machine/Step.lean ====
section
/-! DEFINITION. One step of the system, and the placing of a command where the next step takes it. -/

namespace Sys2Proof.Machine

/-- The command on the port, as the decoder reads it (30_encoding R100, R112). -/
def fetchCommand (s : State) : Except DecodeError Instr :=
  decode s.port.cmdHdr (busPayload s.params.wmax s.port.cmdFrame)

/-- One step (log entry 5), in the priority of 60_exceptions R223: an edge in reset; or the edges at which the
command in flight goes on; or the acceptance of the presented command with its edges; or an idle edge. -/
def step (s : State) : Host.Outcome State Fault Refusal :=
  if 0 < s.port.rstLow then .next (resetEdge s)
  else if s.regs.busy then resume s
  else if s.port.cmdValid then
    match fetchCommand s with
    | .ok i => exec i s
    | .error _ => .next (acceptIllegal s)
  else .next (idleEdge s)

/-- The command whose bits are `w` stands on the command port and the block can accept it at the next edge:
`RST_N = 1`, `BUSY = 0`, `CMD_VALID = 1` (30_encoding R114; log entry 3). -/
def State.withFetchWord (s : State) (nbits w : Nat) : State :=
  { s with
    regs := { s.regs with busy := false }
    port :=
      { rstLow := 0
        cmdValid := true
        cmdHdr := tableHeader nbits w
        cmdFrame := tablePayload nbits w } }

end Sys2Proof.Machine
end

