-- ==== Sys2Proof/Machine/Assembler.lean ====
section
/-! DEFINITION. The spec's assembler: its text, its lines, and the headers and payloads they stand for (30_encoding
R118, R119). -/

namespace Sys2Proof.Machine

/-- One line of the assembler (R118), or a pseudo-instruction (R119). -/
inductive AsmLine where
  /-- `init data=D, stcp=T, shcp=S [, pwr=X] [, width=N] [, warn]`. -/
  | init (data stcp shcp : LineId) (pwr : Option LineId) (width : Option (BitVec 8)) (warn : Bool)
  | setbit (v : Bool)
  | shift
  | clrdata
  | load (f : List Bool)
  | store
  | clear
  | release
  /-- `.cmd 0x..., frame=0x...`. -/
  | raw (hdr : Header) (frame : Payload)
  | pushbit (v : Bool)
  /-- `show`. -/
  | showFrame (f : List Bool)
  | loadz
  | blank
  deriving DecidableEq, Repr

/-- The width default of the assembler (00_scope R9, R118). -/
def asmDefaultWidth : BitVec 8 := 8

/-- The command of `init` (R118). -/
def asmInit (data stcp shcp : LineId) (pwr : Option LineId) (width : Option (BitVec 8)) (warn : Bool) : Instr :=
  .init pwr.isSome warn (width.getD asmDefaultWidth) data stcp shcp (pwr.getD 0)

/-- `W` after a line: "the width of the most recent `init` in the same source text" (R119). -/
def asmWidth (w : Nat) : AsmLine → Nat
  | .init _ _ _ _ width _ => (width.getD asmDefaultWidth).toNat
  | _ => w

/-- The commands of a line, `w` being the width of the most recent `init` (R118, R119). -/
def asmLine (w : Nat) : AsmLine → List (Header × Payload)
  | .init data stcp shcp pwr width warn => [encode (asmInit data stcp shcp pwr width warn)]
  | .setbit v => [encode (.setBit (if v then 1 else 0))]
  | .shift => [encode .shift]
  | .clrdata => [encode .clearData]
  | .load f => [encode (loadInstr f)]
  | .store => [encode .store]
  | .clear => [encode .clear]
  | .release => [encode .release]
  | .raw hdr frame => [(hdr, frame)]
  | .pushbit v => [encode (.setBit (if v then 1 else 0)), encode .shift, encode .clearData]
  | .showFrame f => [encode (loadInstr f), encode .store]
  | .loadz => [encode (loadInstr (zeros w))]
  | .blank => [encode .clear, encode .store]

/-- The commands of a source text. -/
def assemble (w : Nat) : List AsmLine → List (Header × Payload)
  | [] => []
  | l :: ls => asmLine w l ++ assemble (asmWidth w l) ls

/-! ### The text (R118; log entry 12) -/

/-- A line without its comment: everything from `;` on is dropped. -/
def dropComment : List Char → List Char
  | [] => []
  | c :: cs => if c = ';' then [] else c :: dropComment cs

/-- What stands between two words of a line. -/
def isGap (c : Char) : Bool := c = ' ' || c = ',' || c = '\t' || c = '\r'

/-- Cut a text at the characters that satisfy `sep`; `acc` is the piece begun, last character first. -/
def cutAt (sep : Char → Bool) (acc : List Char) : List Char → List (List Char)
  | [] => [acc.reverse]
  | c :: cs => if sep c then acc.reverse :: cutAt sep [] cs else cutAt sep (c :: acc) cs

/-- The words of a line, in lower case. -/
def lineWords (l : List Char) : List (List Char) :=
  (cutAt isGap [] ((dropComment l).map Char.toLower)).filter fun w => !w.isEmpty

/-- The value of a digit. -/
def digitVal (c : Char) : Option Nat :=
  if '0' ≤ c ∧ c ≤ '9' then some (c.toNat - '0'.toNat)
  else if 'a' ≤ c ∧ c ≤ 'f' then some (c.toNat - 'a'.toNat + 10)
  else none

/-- The number the digits write in base `b`, `acc` being the value so far. -/
def readDigits (b acc : Nat) : List Char → Option Nat
  | [] => some acc
  | c :: cs =>
    match digitVal c with
    | some d => if d < b then readDigits b (acc * b + d) cs else none
    | none => none

/-- A decimal number of 8 bits: a line identifier or a width. -/
def readByte (w : List Char) : Option (BitVec 8) :=
  if w = [] then none
  else
    match readDigits 10 0 w with
    | some n => if n ≤ 255 then some (BitVec.ofNat 8 n) else none
    | none => none

/-- A hexadecimal number `0x...` of at most `bits` bits; `_` between digits is for reading only (00_scope R10). -/
def readHex (bits : Nat) : List Char → Option Nat
  | '0' :: 'x' :: ds =>
    if (ds.filter fun c => c ≠ '_') = [] then none
    else
      match readDigits 16 0 (ds.filter fun c => c ≠ '_') with
      | some n => if n < 2 ^ bits then some n else none
      | none => none
  | _ => none

/-- A string of 0 and 1, the first character element 0. -/
def readBits : List Char → Option (List Bool)
  | [] => some []
  | c :: cs =>
    match readBits cs with
    | some f => if c = '0' then some (false :: f) else if c = '1' then some (true :: f) else none
    | none => none

/-- The frame of `load` and `show`: 1 to 255 elements, as `LEN` has 8 bits. -/
def readFrame (w : List Char) : Option (List Bool) :=
  match readBits w with
  | some f => if 1 ≤ f.length ∧ f.length ≤ 255 then some f else none
  | none => none

/-- What follows `key=` in a word. -/
def readKey : List Char → List Char → Option (List Char)
  | [], '=' :: v => some v
  | k :: ks, c :: cs => if k = c then readKey ks cs else none
  | _, _ => none

/-- An 8-bit operand `key=N`. -/
def readKeyByte (key w : List Char) : Option (BitVec 8) := (readKey key w).bind readByte

/-- The optional operands of `init`, in the order of the syntax: `pwr=X`, `width=N`, `warn`. -/
def readInitTail (d st sh : LineId) : List (List Char) → Option AsmLine
  | [] => some (.init d st sh none none false)
  | [a] =>
    if a = "warn".toList then some (.init d st sh none none true)
    else
      match readKeyByte "pwr".toList a, readKeyByte "width".toList a with
      | some x, _ => some (.init d st sh (some x) none false)
      | none, some n => some (.init d st sh none (some n) false)
      | none, none => none
  | [a, b] =>
    if b = "warn".toList then
      match readKeyByte "pwr".toList a, readKeyByte "width".toList a with
      | some x, _ => some (.init d st sh (some x) none true)
      | none, some n => some (.init d st sh none (some n) true)
      | none, none => none
    else
      match readKeyByte "pwr".toList a, readKeyByte "width".toList b with
      | some x, some n => some (.init d st sh (some x) (some n) false)
      | _, _ => none
  | [a, b, c] =>
    match readKeyByte "pwr".toList a, readKeyByte "width".toList b with
    | some x, some n => if c = "warn".toList then some (.init d st sh (some x) (some n) true) else none
    | _, _ => none
  | _ => none

/-- The operands of `init`. -/
def readInit : List (List Char) → Option AsmLine
  | d :: st :: sh :: rest =>
    match readKeyByte "data".toList d, readKeyByte "stcp".toList st,
        readKeyByte "shcp".toList sh with
    | some d, some st, some sh => readInitTail d st sh rest
    | _, _, _ => none
  | _ => none

/-- One bit operand. -/
def readBit : List (List Char) → Option Bool
  | [['0']] => some false
  | [['1']] => some true
  | _ => none

/-- The operands of `.cmd`. -/
def readRaw : List (List Char) → Option AsmLine
  | [h] => (readHex 64 h).map fun n => .raw (BitVec.ofNat 64 n) 0
  | [h, f] =>
    match readHex 64 h, (readKey "frame".toList f).bind (readHex 510) with
    | some n, some p => some (.raw (BitVec.ofNat 64 n) (BitVec.ofNat 510 p))
    | _, _ => none
  | _ => none

/-- A line from its words: the mnemonic first (R118, R119). -/
def readLine : List (List Char) → Option AsmLine
  | [] => none
  | m :: args =>
    if m = "init".toList then readInit args
    else if m = "setbit".toList then (readBit args).map .setbit
    else if m = "shift".toList then if args = [] then some .shift else none
    else if m = "clrdata".toList then if args = [] then some .clrdata else none
    else if m = "load".toList then
      match args with
      | [w] => (readFrame w).map .load
      | _ => none
    else if m = "store".toList then if args = [] then some .store else none
    else if m = "clear".toList then if args = [] then some .clear else none
    else if m = "release".toList then if args = [] then some .release else none
    else if m = ".cmd".toList then readRaw args
    else if m = "pushbit".toList then (readBit args).map .pushbit
    else if m = "show".toList then
      match args with
      | [w] => (readFrame w).map .showFrame
      | _ => none
    else if m = "loadz".toList then if args = [] then some .loadz else none
    else if m = "blank".toList then if args = [] then some .blank else none
    else none

/-- The lines of a text, those without a word left out; `none` where a line is none of R118 and R119. -/
def readLines : List (List Char) → Option (List AsmLine)
  | [] => some []
  | l :: ls =>
    if lineWords l = [] then readLines ls
    else
      match readLine (lineWords l), readLines ls with
      | some a, some as => some (a :: as)
      | _, _ => none

/-- The commands a source text assembles to (R118, R119); before the first `init`, `W` is 0 (log entry 12). -/
def assembleText (text : String) : Option (List (Header × Payload)) :=
  (readLines (cutAt (fun c => c = '\n') [] text.toList)).map (assemble 0)

end Sys2Proof.Machine
end

