-- ==== Sys2Proof/Machine/Clock.lean ====
section
/-! DEFINITION. The block at its ports: one clock edge with the input ports at given values (30_encoding R116,
60_exceptions R223), and runs of edges. -/

namespace Sys2Proof.Machine

/-- The input ports at one rising edge of `CLK` (10_state R58). -/
structure Inputs where
  rstN : Bool
  cmdValid : Bool
  cmdHdr : Header
  cmdFrame : Payload
  rspValid : Bool
  rspErr : Bool
  deriving DecidableEq, Repr

/-- The acceptance edge of a command, by its constructor (30_encoding R115). -/
def acceptInstr (i : Instr) (s : State) : State :=
  match i with
  | .init pwrEn warn width dataLine stcpLine shcpLine pwrLine =>
    acceptInit pwrEn warn width dataLine stcpLine shcpLine pwrLine s
  | .setBit bsym => acceptSetBit bsym s
  | .shift => acceptShift s
  | .clearData => acceptClearData s
  | .loadFrame len payload => acceptLoadFrame len payload s
  | .store => acceptStore s
  | .clear => acceptClear s
  | .release => acceptRelease s

/-- `Accept(CMD_HDR, CMD_FRAME)` (30_encoding R114): an illegal header is refused with ILLEGAL_CMD (R111). -/
def acceptCommand (h : Header) (p : Payload) (s : State) : State :=
  match decode h (busPayload s.params.wmax p) with
  | .ok i => acceptInstr i s
  | .error _ => acceptIllegal s

/-- The clock-cycle step of the FSM (30_encoding R116), with the priority of 60_exceptions R223: reset, else an
acceptance (only while `BUSY = 0`), else an answer (only while `BUSY = 1`), else nothing but `DONE_VALID <- 0`. -/
def clockEdge (inp : Inputs) (s : State) : State :=
  if inp.rstN = false then resetEdge s
  else if s.regs.busy = false ∧ inp.cmdValid then acceptCommand inp.cmdHdr inp.cmdFrame s
  else if s.regs.busy ∧ inp.rspValid then answerEdge (if inp.rspErr then .err else .ok) s
  else quietEdge s

/-- A run of edges, the first input first. -/
def clockRun : List Inputs → State → State
  | [], s => s
  | inp :: rest, s => clockRun rest (clockEdge inp s)

/-- The inputs of an edge at which a command is presented. -/
def cmdInputs (h : Header) (p : Payload) : Inputs := ⟨true, true, h, p, false, false⟩

/-- The inputs of an edge at which no command is presented and the answer port shows the given value. -/
def rspInputs : Option Answer → Inputs
  | none => ⟨true, false, 0, 0, false, false⟩
  | some .ok => ⟨true, false, 0, 0, true, false⟩
  | some .err => ⟨true, false, 0, 0, true, true⟩

end Sys2Proof.Machine
end

