-- ==== Sys2Proof/Safety.lean ====
section
/-! DEFINITION. The terms claims are made in: the backend's answers to come, the platform premises, the invariant
of the machine, and the ends of a command. -/

namespace Sys2Proof.Machine

/-- What the answer port shows at the next `n` edges with a request outstanding, the first of them being the edge
numbered `cycle` (20_memory R71, R73). -/
def rspAhead : Nat → List (Option Answer) → Nat → List (Option Answer)
  | 0, _, _ => []
  | n + 1, draws, cycle =>
    (match draws with
      | r :: _ => r
      | [] => Config.freeRsp cycle) :: rspAhead n draws.tail (cycle + 1)

/-- A command presented now is answered so, at once: its first transactions get these answers at consecutive edges,
the first of them after the acceptance edge (30_encoding R117). -/
def BackendAnswers (as : List Answer) (s : State) : Prop :=
  rspAhead as.length s.draws (s.cycle + 1) = as.map some

/-- The premise healthy backend for the next `n` transactions (20_memory R82). -/
def Healthy (n : Nat) (s : State) : Prop := BackendAnswers (List.replicate n .ok) s

/-- The platform premise matched device: `DW = CFG_WIDTH` (20_memory R97). -/
def MatchedDevice (s : State) : Prop :=
  s.dev.sr.length = s.regs.width ∧ s.dev.q.length = s.regs.width

/-- The lines the block drives after INIT are at their idle levels: both clocks low, power high where present
(40_init R133, 20_memory R93). -/
def LinesKnown (s : State) : Prop :=
  s.dev.pShcp = .zero ∧ s.dev.pStcp = .zero ∧ (s.regs.cfgPwrEn = true → s.dev.pPwr = .one)

/-- A command can be accepted and the block is READY. -/
def ReadyForCommand (s : State) : Prop := s.cmdReady = true ∧ s.regs.life = .ready

/-- What validation asks of a configuration (40_init R131, 10_state R42). -/
def Regs.Configured (wmax : Nat) (r : Regs) : Prop :=
  r.claimed = true ∧ 1 ≤ r.width ∧ r.width ≤ wmax
    ∧ (usedLines r.cfgPwrEn r.cfgDataLine r.cfgStcpLine r.cfgShcpLine r.cfgPwrLine).Nodup

/-- What a command in flight looks like: its `K` is an index of its `SEQ`, and it is an INIT outside READY, a bit
command or CLEAR in READY, or a RELEASE whose last transaction alone is `ReleaseAll` (10_state R48, R49;
60_exceptions R222; 42_clear_release R164). -/
def Regs.InFlight (wmax : Nat) (r : Regs) : Prop :=
  r.k < r.seq.length
    ∧ ((r.curOp = 1 ∧ r.life ≠ .ready ∧ r.relErr = false ∧ r.Configured wmax)
      ∨ (r.curOp ≠ 1 ∧ r.curOp ≠ 8 ∧ r.life = .ready ∧ r.relErr = false)
      ∨ (r.curOp = 8 ∧ r.claimed = true ∧ ∃ l, r.seq = l ++ [.releaseAll] ∧ Txn.releaseAll ∉ l))

/-- The command of the host's release duty: a RELEASE that stands on the port or was accepted (45_host_sequencer
R194), or, in a lifetime begun anew after a reset, an INIT (70_reset_and_hazards R262). -/
def ReleaseUnderWay (s : State) : Prop :=
  if s.host.inited = true then s.port.cmdValid = true → opOf s.port.cmdHdr = 1
  else (s.port.cmdValid = true ∧ s.port.cmdHdr = 0x0000_0000_0000_0008)
    ∨ (s.port.cmdValid = false ∧ s.regs.curOp = 8)

/-- The invariant of the machine. -/
structure Inv (s : State) : Prop where
  /-- `1 ≤ WMAX ≤ 255` (00_scope R8). -/
  wmax : 1 ≤ s.params.wmax ∧ s.params.wmax ≤ 255
  /-- `FBUF` has `WMAX` elements (10_state R46). -/
  fbuf : s.regs.fbuf.length = s.params.wmax
  /-- `SR` and `Q` have the same number of stages (20_memory R88). -/
  stages : s.dev.sr.length = s.dev.q.length
  /-- In READY the lines are claimed and the configuration is a legal one (10_state R35, R42, R44). -/
  ready : s.regs.life = .ready → s.regs.Configured s.params.wmax
  /-- `LAST_STATUS` and `DONE_STATUS` are written together (10_state R36). -/
  status : s.regs.lastStatus = s.regs.doneStatus
  /-- No response stands while a command is in flight (10_state R34, R54). -/
  done : s.regs.doneValid = true → s.regs.busy = false
  /-- The bound of 10_state R47, which INIT passes when `WMAX = 1` (log entry 7). -/
  seqLen : s.regs.seq.length ≤ max 8 (4 * s.params.wmax + 1)
  /-- A command in flight has one of the three shapes. -/
  flight : s.regs.busy = true → s.regs.InFlight s.params.wmax
  /-- What the host awaits in its release duty is a RELEASE, or the INIT before it (45_host_sequencer R194,
  70_reset_and_hazards R262). -/
  releasing : s.host.stage = .releasing → s.host.awaiting = true → ReleaseUnderWay s

/-- The configuration registers are the same (10_state R37 to R43). -/
def SameConfig (r r' : Regs) : Prop :=
  r'.cfgDataLine = r.cfgDataLine ∧ r'.cfgStcpLine = r.cfgStcpLine ∧ r'.cfgShcpLine = r.cfgShcpLine
    ∧ r'.cfgPwrLine = r.cfgPwrLine ∧ r'.cfgPwrEn = r.cfgPwrEn ∧ r'.cfgWidth = r.cfgWidth
    ∧ r'.cfgWarn = r.cfgWarn

/-- Nothing outside the block and its device has moved, but the host took the command off the port (log entry 3). -/
def SameSurroundings (s t : State) : Prop :=
  t.host = s.host ∧ t.params = s.params ∧ t.port = { s.port with cmdValid := false }

/-- The state after a command that failed validation with this code (60_exceptions R224, 30_encoding R114), the
command taken off the port (log entry 3). -/
def refusedWith (code : Status) (s : State) : State :=
  { s with
    regs := { s.regs with relErr := false, lastStatus := code, doneStatus := code, doneValid := true }
    port := { s.port with cmdValid := false }
    cycle := s.cycle + 1 }

/-- What a command that failed validation leaves: the response, `REL_ERR` cleared, and nothing else of the block, its
device and its transactions (60_exceptions R224). -/
def EndsRefused (code : Status) (s t : State) : Prop :=
  t.regs = { s.regs with relErr := false, lastStatus := code, doneStatus := code, doneValid := true } ∧
    t.dev = s.dev ∧ t.trace = s.trace

/-- The frame a payload carries in its first `F.length` symbols (30_encoding R103, R108). -/
def CarriesFrame (f : List Bool) (p : Payload) : Prop :=
  ∀ i (h : i < f.length), payloadSym p i = if f[i] then 0b01#2 else 0b00#2

/-- At an idle edge the host sees the response of its command with this status: at `DONE_VALID`, or in `LAST_STATUS`
if it reads that instead and lets no further edge pass (45_host_sequencer R181, R195). -/
def HostSees (code : Status) (s : State) : Prop :=
  s.host.awaiting = true ∧
    ((s.host.readsStatus = false ∧ s.regs.doneValid = true ∧ code = s.regs.doneStatus)
      ∨ (s.host.readsStatus = true ∧ s.host.misses.headD 0 = 0 ∧ code = s.regs.lastStatus))

/-- The trace entries of a command's transactions follow `seq` from its start, and none but the last failed
(20_memory R77). -/
def InOrder (seq : List Txn) (l : List (Txn × Answer)) : Prop :=
  l.map Prod.fst <+: seq ∧ ∀ e ∈ l.dropLast, e.2 = .ok

/-- The trace entries of a RELEASE: in order, or in order up to a failed transaction of the clear phase and then the
`ReleaseAll` alone, if that was answered already (20_memory R77, 42_clear_release R166). -/
def ReleaseInOrder (seq : List Txn) (l : List (Txn × Answer)) : Prop :=
  InOrder seq l ∨
    ∃ p t q, l = p ++ (t, Answer.err) :: q ∧ InOrder seq (p ++ [(t, .err)]) ∧ t ≠ .releaseAll ∧
      (q = [] ∨ ∃ a, q = [(.releaseAll, a)])

/-- The headers and payloads decode to these commands. -/
def DecodeTo (cs : List (Header × Payload)) (is : List Instr) : Prop :=
  (cs.map fun c => decode c.1 c.2) = is.map .ok

/-- The headers and payloads decode to one LOAD_FRAME of the frame: its length, its elements in the first symbols, and
0 in the symbols beyond (30_encoding R108, R118). -/
def DecodeToLoad (cs : List (Header × Payload)) (f : List Bool) : Prop :=
  ∃ len p, DecodeTo cs [.loadFrame len p] ∧ len.toNat = f.length ∧ CarriesFrame f p ∧
    ∀ i, f.length ≤ i → payloadSym p i = 0b00#2

/-- The raw protocol: for each element SET_BIT, SHIFT, CLEAR_DATA (41_bit_protocol R147). -/
def rawLoad : List Bool → State → Option State
  | [], s => some s
  | b :: f, s =>
    match exec (.setBit (if b then 0b01#2 else 0b00#2)) s with
    | .next s1 =>
      match exec .shift s1 with
      | .next s2 =>
        match exec .clearData s2 with
        | .next s3 => rawLoad f s3
        | _ => none
      | _ => none
    | _ => none

/-- What the device is after a transaction answered ERR, written out (20_memory R89 to R94, 60_exceptions R227): the
line is at an unknown level; SR is unknown after a shift clock, unless a low power line holds it clear, Q after a store
clock, and both as R92 says after a power line in use; after `ReleaseAll` everything is unknown. -/
def Device.afterErr (pq : PwrQEffect) (pwrEn : Bool) (t : Txn) (d : Device) : Device :=
  match t with
  | .configure .data | .write .data _ => { d with pData := .x }
  | .configure .shcp | .write .shcp _ =>
    { d with
      pShcp := .x
      sr := List.replicate d.sr.length (if pwrEn = true ∧ d.pPwr = .zero then .zero else .x) }
  | .configure .stcp | .write .stcp _ => { d with pStcp := .x, q := List.replicate d.q.length .x }
  | .configure .pwr | .write .pwr _ =>
    { d with
      pPwr := .x
      sr := if pwrEn = true then List.replicate d.sr.length .x else d.sr
      q := if pwrEn = true ∧ pq = .unknown then List.replicate d.q.length .x else d.q }
  | .releaseAll =>
    { sr := List.replicate d.sr.length .x, q := List.replicate d.q.length .x,
      pData := .x, pShcp := .x, pStcp := .x, pPwr := .x }

/-- The trace entries of transactions that were all answered OK. -/
def okTrace (ts : List Txn) : List (Txn × Answer) := ts.map fun t => (t, .ok)

/-- What the device is after the given transactions, all answered OK (20_memory R89). -/
def Device.transactAll (pq : PwrQEffect) (pwrEn : Bool) : List Txn → Device → Device
  | [], d => d
  | t :: ts, d => Device.transactAll pq pwrEn ts (d.transact pq pwrEn t .ok)

/-- What the shadows are after the given transactions, all answered OK (20_memory R81). -/
def Regs.shadowAll : List Txn → Regs → Regs
  | [], r => r
  | t :: ts, r => Regs.shadowAll ts (r.shadow t .ok)

end Sys2Proof.Machine
end

