-- ==== Sys2Proof/WellFormed.lean ====
section
/-! DEFINITION. Which terms of `Instr` a command port with `2·WMAX` payload wires can carry. -/

namespace Sys2Proof

/-- The payload has a value on the `2·WMAX` wires that exist and nothing above them (30_encoding R100). Every
other operand has exactly the width of its field, so no other term is ill-formed; an operand value the block
refuses (a width, a symbol, a length) is well-formed and gets a status code. -/
def Instr.wellFormed (wmax : Nat) : Instr → Bool
  | .init _ _ _ _ _ _ _ => true
  | .setBit _ => true
  | .shift => true
  | .clearData => true
  | .loadFrame _ payload => decide (payload.toNat < 2 ^ (2 * wmax))
  | .store => true
  | .clear => true
  | .release => true

end Sys2Proof
end

