-- ==== Sys2Proof/Certificates/Slice0/Obligations.lean ====
section
/-! DEFINITION. The statements for the provers. -/

open Sys2Proof Sys2Proof.Machine

/-! ### Encoding -/

/-- A few headers of the spec's own examples decode to the commands they stand for, and two illegal ones are
rejected by name (30_encoding R101, R109, R111; 95_test_vectors 2.1). -/
def Obligations.SpecHeadersDecode : Prop :=
  decode 0x0000_0004_0302_0401 0 = .ok (.init false false 4 2 3 4 0) ∧
  decode 0x0000_0504_0302_04C1 0 = .ok (.init true true 4 2 3 4 5) ∧
  decode 0x0000_0000_0000_0012 0 = .ok (.setBit 0b01) ∧
  decode 0x0000_0000_0000_0003 0 = .ok .shift ∧
  decode 0x0000_0000_0000_0004 0 = .ok .clearData ∧
  decode 0x0000_0000_0000_0405 0x51 = .ok (.loadFrame 4 0x51) ∧
  decode 0x0000_0000_0000_0006 0 = .ok .store ∧
  decode 0x0000_0000_0000_0007 0 = .ok .clear ∧
  decode 0x0000_0000_0000_0008 0 = .ok .release ∧
  decode 0x0000_0000_0000_0112 0 = .error (.unusedFieldNotZero 2) ∧
  decode 0x0000_0000_0000_0000 0 = .error (.illegalOpcode 0)

/-- Encoding a well-formed command and decoding what the port carries of it gives the command back, every operand
at every value (30_encoding R100, R101, R109). -/
def Obligations.EncodedCommandDecodes : Prop :=
  ∀ (wmax : Nat) (i : Instr), i.wellFormed wmax = true →
    decode (encode i).1 (busPayload wmax (encode i).2) = .ok i

/-- A header that decodes has one encoding: encoding the command gives the header back, and a LOAD_FRAME carries
the payload (30_encoding R109, R110, R112). -/
def Obligations.DecodedHeaderReencodes : Prop :=
  ∀ (h : Header) (p : Payload) (i : Instr), decode h p = .ok i →
    (encode i).1 = h ∧ ∀ len q, i = .loadFrame len q → q = p

/-- A header is illegal exactly when its opcode is 0x0 or 0x9 to 0xF, or the row of its opcode fails the mask test
(30_encoding R111). -/
def Obligations.IllegalHeaders : Prop :=
  ∀ (h : Header) (p : Payload),
    (∃ e, decode h p = .error e) ↔
      (opOf h ∈ [0x0#4, 0x9#4, 0xA#4, 0xB#4, 0xC#4, 0xD#4, 0xE#4, 0xF#4] ∨
        ∀ row ∈ opcodeTable, opOf row.pattern = opOf h → h &&& row.mask ≠ row.pattern)

/-- When the block can accept the command on the port and its header and payload decode to `i`, the step is `exec i`
of that state, with nothing around it: acceptance takes the command off the port inside `exec` (30_encoding R114; log
entries 3 and 5). -/
def Obligations.StepRunsPresentedCommand : Prop :=
  ∀ (s : State) (i : Instr), s.cmdReady = true → s.port.cmdValid = true → fetchCommand s = .ok i →
    step s = exec i s

/-- An illegal header ends with ILLEGAL_CMD: no transaction, and no register but the status, the response and
REL_ERR (30_encoding R111, R114; 60_exceptions R224); that REL_ERR is cleared here too is log entry 9, that the command
leaves the port log entry 3. -/
def Obligations.IllegalHeaderAnswersIllegalCmd : Prop :=
  ∀ (s : State) (e : DecodeError), s.cmdReady = true → s.port.cmdValid = true → fetchCommand s = .error e →
    step s = .next (refusedWith .illegalCmd s)

/-! ### Validation -/

/-- INIT in READY, and every command but INIT and RELEASE outside READY, ends with STATE_ERROR whatever its
operands; an admitted command that ends never has that status (60_exceptions R222). -/
def Obligations.AdmissionByLifecycle : Prop :=
  ∀ (s : State) (i : Instr), s.cmdReady = true →
    ((rowOf i = initRow ∧ s.regs.life = .ready) ∨
        (rowOf i ≠ initRow ∧ rowOf i ≠ releaseRow ∧ s.regs.life ≠ .ready) →
      ∃ t, exec i s = .next t ∧ EndsRefused .stateError s t) ∧
    (¬ ((rowOf i = initRow ∧ s.regs.life = .ready) ∨
        (rowOf i ≠ initRow ∧ rowOf i ≠ releaseRow ∧ s.regs.life ≠ .ready)) →
      ∃ t, exec i s = .next t ∧ (t.regs.busy = false → t.regs.lastStatus ≠ .stateError))

/-- An admitted INIT with width 0, a width above WMAX, or two equal used line identifiers ends with CONFIG_ERROR
before anything is written; every other admitted INIT writes the configuration, claims the lines and fixes its
transaction list, whatever the backend answers (40_init R131, R132). -/
def Obligations.InitChecksThenPrepares : Prop :=
  ∀ (s : State) (pwrEn warn : Bool) (width : BitVec 8) (d st sh pw : LineId),
    s.cmdReady = true → s.regs.life ≠ .ready →
    if width.toNat < 1 ∨ s.params.wmax < width.toNat ∨ d = st ∨ d = sh ∨ st = sh ∨
        (pwrEn = true ∧ (pw = d ∨ pw = st ∨ pw = sh)) then
      ∃ t, exec (.init pwrEn warn width d st sh pw) s = .next t ∧ EndsRefused .configError s t
    else
      ∃ t, exec (.init pwrEn warn width d st sh pw) s = .next t ∧
        t.regs.cfgWidth = width ∧ t.regs.cfgDataLine = d ∧ t.regs.cfgStcpLine = st ∧ t.regs.cfgShcpLine = sh ∧
        t.regs.cfgPwrLine = pw ∧ t.regs.cfgPwrEn = pwrEn ∧ t.regs.cfgWarn = warn ∧ t.regs.claimed = true ∧
        t.regs.seq = [.configure .data, .configure .stcp, .configure .shcp]
          ++ (if pwrEn then [.configure .pwr] else [])
          ++ [.write .stcp false, .write .shcp false, .write .data false]
          ++ (if pwrEn then [.write .pwr true] else [])

/-- SET_BIT in READY with symbol 0b10 or 0b11 ends with INVALID_BIT and leaves the data line alone
(41_bit_protocol R140, 30_encoding R103). -/
def Obligations.SetBitRejectsInvalidSymbol : Prop :=
  ∀ (s : State) (bsym : BitVec 2), ReadyForCommand s → bsym = 0b10#2 ∨ bsym = 0b11#2 →
    exec (.setBit bsym) s = .next (refusedWith .invalidBit s)

/-- LOAD_FRAME in READY: a wrong length is FRAME_LENGTH whatever the symbols; with the right length an invalid
symbol inside the frame is INVALID_BIT; symbols beyond the frame are never looked at (41_bit_protocol R143,
60_exceptions R221). -/
def Obligations.LoadFrameValidatesFirst : Prop :=
  ∀ (s : State) (len : BitVec 8) (p : Payload), ReadyForCommand s →
    (len ≠ s.regs.cfgWidth → exec (.loadFrame len p) s = .next (refusedWith .frameLength s)) ∧
    (len = s.regs.cfgWidth →
      (∃ i, i < s.regs.width ∧ (payloadSym p i = 0b10#2 ∨ payloadSym p i = 0b11#2)) →
      exec (.loadFrame len p) s = .next (refusedWith .invalidBit s)) ∧
    (∀ q : Payload, (∀ i, i < s.regs.width → payloadSym q i = payloadSym p i) →
      exec (.loadFrame len q) s = exec (.loadFrame len p) s)

/-! ### Completion on a healthy backend, with the result. What `SameSurroundings` says of the port is log entry 3. -/

/-- INIT on a healthy backend: READY, clocks and data low, power high if present; the device then shows nothing
known (40_init R130, R132, R133, R135; 20_memory R93). -/
def Obligations.InitCompletes : Prop :=
  ∀ (s : State) (pwrEn warn : Bool) (width : BitVec 8) (d st sh pw : LineId),
    s.cmdReady = true → s.regs.life ≠ .ready → 1 ≤ width.toNat → width.toNat ≤ s.params.wmax →
    d ≠ st → d ≠ sh → st ≠ sh → (pwrEn = true → pw ≠ d ∧ pw ≠ st ∧ pw ≠ sh) →
    Healthy (if pwrEn then 8 else 6) s →
    ∃ t, exec (.init pwrEn warn width d st sh pw) s = .next t ∧
      t.regs = { s.regs with
        life := .ready, busy := false, claimed := true, lastStatus := .ok, doneStatus := .ok, doneValid := true,
        cfgDataLine := d, cfgStcpLine := st, cfgShcpLine := sh, cfgPwrLine := pw, cfgPwrEn := pwrEn,
        cfgWidth := width, cfgWarn := warn, curOp := 1, relErr := false,
        seq := initSeq pwrEn, k := if pwrEn then 7 else 5,
        lvlData := .low, lvlShcp := .low, lvlStcp := .low,
        lvlPwr := if pwrEn then .high else s.regs.lvlPwr } ∧
      t.dev = { sr := List.replicate s.dev.sr.length .x, q := List.replicate s.dev.q.length .x,
                pData := .zero, pShcp := .zero, pStcp := .zero,
                pPwr := if pwrEn then .one else s.dev.pPwr } ∧
      t.trace = s.trace ++ okTrace (initSeq pwrEn)

/-- SET_BIT with a valid symbol, on a healthy backend: the data line is driven to the bit, nothing else of the
device moves (41_bit_protocol R140). -/
def Obligations.SetBitCompletes : Prop :=
  ∀ (s : State) (v : Bool), ReadyForCommand s → Healthy 1 s →
    ∃ t, exec (.setBit (if v then 0b01#2 else 0b00#2)) s = .next t ∧
      t.regs = { s.regs with
        lastStatus := .ok, doneStatus := .ok, doneValid := true, curOp := 2, relErr := false, curBit := v,
        seq := [.write .data v], k := 0, lvlData := Level.ofBool v } ∧
      t.dev = { s.dev with pData := Cell.ofBool v } ∧
      t.trace = s.trace ++ [(.write .data v, .ok)] ∧ SameSurroundings s t

/-- SHIFT on a healthy backend: one pulse of the shift clock; from a low clock with the device powered the data
level enters stage 0 and every stage moves one place, the outputs stay (41_bit_protocol R141, 20_memory R90). -/
def Obligations.ShiftCompletes : Prop :=
  ∀ (s : State), ReadyForCommand s → Healthy 2 s →
    ∃ t, exec .shift s = .next t ∧
      t.regs = { s.regs with
        lastStatus := .ok, doneStatus := .ok, doneValid := true, curOp := 3, relErr := false,
        seq := [.write .shcp true, .write .shcp false], k := 1, lvlShcp := .low } ∧
      (s.dev.pShcp = .zero → (s.regs.cfgPwrEn = true → s.dev.pPwr = .one) →
        t.dev = { s.dev with sr := (s.dev.pData :: s.dev.sr).dropLast }) ∧
      t.trace = s.trace ++ [(.write .shcp true, .ok), (.write .shcp false, .ok)] ∧ SameSurroundings s t

/-- CLEAR_DATA on a healthy backend: the data line is driven low (41_bit_protocol R142). -/
def Obligations.ClearDataCompletes : Prop :=
  ∀ (s : State), ReadyForCommand s → Healthy 1 s →
    ∃ t, exec .clearData s = .next t ∧
      t.regs = { s.regs with
        lastStatus := .ok, doneStatus := .ok, doneValid := true, curOp := 4, relErr := false,
        seq := [.write .data false], k := 0, lvlData := .low } ∧
      t.dev = { s.dev with pData := .zero } ∧
      t.trace = s.trace ++ [(.write .data false, .ok)] ∧ SameSurroundings s t

/-- LOAD_FRAME of a frame of the configured width on a healthy backend: four writes an element, first element
first; from a low shift clock with the device powered the register holds the frame (`SRV = F`), data and shift
clock are low, the outputs stay (41_bit_protocol R143, R144; 20_memory R96). -/
def Obligations.LoadFrameCompletes : Prop :=
  ∀ (s : State) (f : List Bool) (p : Payload), ReadyForCommand s → 1 ≤ s.regs.width →
    f.length = s.regs.width → CarriesFrame f p → Healthy (4 * s.regs.width) s →
    ∃ t, exec (.loadFrame s.regs.cfgWidth p) s = .next t ∧
      t.regs = { s.regs with
        lastStatus := .ok, doneStatus := .ok, doneValid := true, curOp := 5, relErr := false,
        fbuf := f ++ s.regs.fbuf.drop s.regs.width,
        seq := f.flatMap fun b =>
          [.write .data b, .write .shcp true, .write .shcp false, .write .data false],
        k := 4 * s.regs.width - 1, lvlData := .low, lvlShcp := .low } ∧
      (s.dev.sr.length = s.regs.width → s.dev.pShcp = .zero → (s.regs.cfgPwrEn = true → s.dev.pPwr = .one) →
        t.dev = { s.dev with sr := (cellsOf f).reverse, pData := .zero } ∧
        t.dev.srv s.regs.width = cellsOf f) ∧
      t.trace = s.trace ++ okTrace t.regs.seq

/-- STORE on a healthy backend: one pulse of the store clock; from a low clock the outputs take the register, all
stages at once (41_bit_protocol R145, 20_memory R91). -/
def Obligations.StoreCompletes : Prop :=
  ∀ (s : State), ReadyForCommand s → Healthy 2 s →
    ∃ t, exec .store s = .next t ∧
      t.regs = { s.regs with
        lastStatus := .ok, doneStatus := .ok, doneValid := true, curOp := 6, relErr := false,
        seq := [.write .stcp true, .write .stcp false], k := 1, lvlStcp := .low } ∧
      (s.dev.pStcp = .zero → t.dev = { s.dev with q := s.dev.sr }) ∧
      t.trace = s.trace ++ [(.write .stcp true, .ok), (.write .stcp false, .ok)] ∧ SameSurroundings s t

/-- CLEAR without a power line on a healthy backend: a load of zeros, which leaves an all-zero register and the
outputs alone (42_clear_release R160, R161). -/
def Obligations.ClearByZerosCompletes : Prop :=
  ∀ (s : State), ReadyForCommand s → s.regs.cfgPwrEn = false → 1 ≤ s.regs.width →
    Healthy (4 * s.regs.width) s →
    ∃ t, exec .clear s = .next t ∧
      t.regs = { s.regs with
        lastStatus := .ok, doneStatus := .ok, doneValid := true, curOp := 7, relErr := false,
        seq := (List.replicate s.regs.width
          [Txn.write .data false, .write .shcp true, .write .shcp false, .write .data false]).flatten,
        k := 4 * s.regs.width - 1, lvlData := .low, lvlShcp := .low } ∧
      (s.dev.sr.length = s.regs.width → s.dev.pShcp = .zero →
        t.dev = { s.dev with sr := List.replicate s.regs.width .zero, pData := .zero }) ∧
      t.trace = s.trace ++ okTrace t.regs.seq

/-- CLEAR with a power line on a healthy backend: data low, power low then high, one shift pulse; the register is
all zero whatever it held; with `PWR_Q_EFFECT = HOLD` the outputs stay, with UNKNOWN they are unknown
(42_clear_release R160, R162; 20_memory R92). -/
def Obligations.ClearByPowerCompletes : Prop :=
  ∀ (s : State), ReadyForCommand s → s.regs.cfgPwrEn = true → Healthy 5 s →
    ∃ t, exec .clear s = .next t ∧
      t.regs = { s.regs with
        lastStatus := .ok, doneStatus := .ok, doneValid := true, curOp := 7, relErr := false,
        seq := [.write .data false, .write .pwr false, .write .pwr true, .write .shcp true, .write .shcp false],
        k := 4, lvlData := .low, lvlShcp := .low, lvlPwr := .high } ∧
      (s.dev.pShcp = .zero →
        t.dev = { s.dev with
          sr := List.replicate s.dev.sr.length .zero, pData := .zero, pPwr := .one,
          q := if s.params.pwrQ = .hold then s.dev.q else List.replicate s.dev.q.length .x }) ∧
      t.trace = s.trace ++ okTrace t.regs.seq

/-- RELEASE in READY on a healthy backend: the clear phase, then the release of all lines; RELEASED, nothing
claimed, every shadow U, every line and cell of the device unknown (42_clear_release R164, R165; 20_memory R94). -/
def Obligations.ReleaseFromReadyCompletes : Prop :=
  ∀ (s : State), ReadyForCommand s →
    Healthy (if s.regs.cfgPwrEn then 6 else 4 * s.regs.width + 1) s →
    ∃ t, exec .release s = .next t ∧
      t.regs = { s.regs with
        life := .released, claimed := false, lastStatus := .ok, doneStatus := .ok, doneValid := true,
        curOp := 8, relErr := false, seq := clearSeq s.regs ++ [.releaseAll],
        k := if s.regs.cfgPwrEn then 5 else 4 * s.regs.width,
        lvlData := .u, lvlShcp := .u, lvlStcp := .u, lvlPwr := .u } ∧
      t.dev = { sr := List.replicate s.dev.sr.length .x, q := List.replicate s.dev.q.length .x,
                pData := .x, pShcp := .x, pStcp := .x, pPwr := .x } ∧
      t.trace = s.trace ++ okTrace t.regs.seq ∧ SameSurroundings s t

/-- RELEASE outside READY: with lines still claimed (a failed INIT) it issues `ReleaseAll` alone; with nothing
claimed it issues nothing and responds at once; either way it ends in RELEASED with nothing claimed, so a second
RELEASE issues nothing (42_clear_release R164, R165, R168). That CUR_OP, SEQ, K and REL_ERR are written even where there
is nothing to release is log entry 9. -/
def Obligations.ReleaseOutsideReadyCompletes : Prop :=
  ∀ (s : State), s.cmdReady = true → s.regs.life ≠ .ready →
    (s.regs.claimed = true → Healthy 1 s →
      ∃ t, exec .release s = .next t ∧
        t.regs = { s.regs with
          life := .released, claimed := false, lastStatus := .ok, doneStatus := .ok, doneValid := true,
          curOp := 8, relErr := false, seq := [.releaseAll], k := 0,
          lvlData := .u, lvlShcp := .u, lvlStcp := .u, lvlPwr := .u } ∧
        t.trace = s.trace ++ [(.releaseAll, .ok)] ∧ SameSurroundings s t) ∧
    (s.regs.claimed = false →
      ∃ t, exec .release s = .next t ∧
        t.regs = { s.regs with
          life := .released, lastStatus := .ok, doneStatus := .ok, doneValid := true,
          curOp := 8, relErr := false, seq := [], k := 0 } ∧
        t.dev = s.dev ∧ t.trace = s.trace ∧ SameSurroundings s t)

/-! ### Frames: what a presented command leaves unchanged, however it ends or wherever it waits -/

/-- INIT: the frame latch and the bit latch; without a power line also the power shadow and level; the number of stages;
the host, the parameters and the port, but that the command is off it, which is log entry 3 (40_init R130, R133). -/
def Obligations.InitFrame : Prop :=
  ∀ (s t : State) (pwrEn warn : Bool) (width : BitVec 8) (d st sh pw : LineId), s.cmdReady = true →
    exec (.init pwrEn warn width d st sh pw) s = .next t →
    t.regs.fbuf = s.regs.fbuf ∧ t.regs.curBit = s.regs.curBit ∧
    (pwrEn = false → t.regs.lvlPwr = s.regs.lvlPwr ∧ t.dev.pPwr = s.dev.pPwr) ∧
    t.dev.sr.length = s.dev.sr.length ∧ SameSurroundings s t

/-- SET_BIT and CLEAR_DATA: everything of the device but the data level, every shadow but DATA, the configuration,
the lifecycle, the frame latch; CLEAR_DATA also the bit latch (41_bit_protocol R140, R142). -/
def Obligations.DataLineCommandsFrame : Prop :=
  ∀ (s t : State) (i : Instr), s.cmdReady = true → ((∃ b, i = .setBit b) ∨ i = .clearData) →
    exec i s = .next t →
    SameConfig s.regs t.regs ∧ t.regs.life = s.regs.life ∧ t.regs.claimed = s.regs.claimed ∧
    t.regs.fbuf = s.regs.fbuf ∧ (i = .clearData → t.regs.curBit = s.regs.curBit) ∧
    t.regs.lvlShcp = s.regs.lvlShcp ∧ t.regs.lvlStcp = s.regs.lvlStcp ∧ t.regs.lvlPwr = s.regs.lvlPwr ∧
    t.dev = { s.dev with pData := t.dev.pData } ∧ SameSurroundings s t

/-- SHIFT: the output latch, every line but SHCP, every shadow but SHCP, the configuration, the lifecycle, the
latches (41_bit_protocol R141). -/
def Obligations.ShiftFrame : Prop :=
  ∀ (s t : State), s.cmdReady = true → exec .shift s = .next t →
    SameConfig s.regs t.regs ∧ t.regs.life = s.regs.life ∧ t.regs.claimed = s.regs.claimed ∧
    t.regs.fbuf = s.regs.fbuf ∧ t.regs.curBit = s.regs.curBit ∧
    t.regs.lvlData = s.regs.lvlData ∧ t.regs.lvlStcp = s.regs.lvlStcp ∧ t.regs.lvlPwr = s.regs.lvlPwr ∧
    t.dev = { s.dev with sr := t.dev.sr, pShcp := t.dev.pShcp } ∧ SameSurroundings s t

/-- LOAD_FRAME: the output latch, the lines and shadows of STCP and PWR, the frame latch beyond the width, the bit
latch, the configuration, the lifecycle (41_bit_protocol R143, 10_state R46). -/
def Obligations.LoadFrameFrame : Prop :=
  ∀ (s t : State) (len : BitVec 8) (p : Payload), s.cmdReady = true → exec (.loadFrame len p) s = .next t →
    SameConfig s.regs t.regs ∧ t.regs.life = s.regs.life ∧ t.regs.claimed = s.regs.claimed ∧
    t.regs.fbuf.drop s.regs.width = s.regs.fbuf.drop s.regs.width ∧ t.regs.curBit = s.regs.curBit ∧
    t.regs.lvlStcp = s.regs.lvlStcp ∧ t.regs.lvlPwr = s.regs.lvlPwr ∧
    t.dev = { s.dev with sr := t.dev.sr, pData := t.dev.pData, pShcp := t.dev.pShcp } ∧ SameSurroundings s t

/-- STORE: the shift register, every line but STCP, every shadow but STCP, the configuration, the lifecycle, the
latches (41_bit_protocol R145). -/
def Obligations.StoreFrame : Prop :=
  ∀ (s t : State), s.cmdReady = true → exec .store s = .next t →
    SameConfig s.regs t.regs ∧ t.regs.life = s.regs.life ∧ t.regs.claimed = s.regs.claimed ∧
    t.regs.fbuf = s.regs.fbuf ∧ t.regs.curBit = s.regs.curBit ∧
    t.regs.lvlData = s.regs.lvlData ∧ t.regs.lvlShcp = s.regs.lvlShcp ∧ t.regs.lvlPwr = s.regs.lvlPwr ∧
    t.dev = { s.dev with q := t.dev.q, pStcp := t.dev.pStcp } ∧ SameSurroundings s t

/-- CLEAR: the line and shadow of STCP, the latches, the configuration, the lifecycle; without a power line or with
`PWR_Q_EFFECT = HOLD` the output latch; without a power line also the power line and shadow (42_clear_release
R160, R163). -/
def Obligations.ClearFrame : Prop :=
  ∀ (s t : State), s.cmdReady = true → exec .clear s = .next t →
    SameConfig s.regs t.regs ∧ t.regs.life = s.regs.life ∧ t.regs.claimed = s.regs.claimed ∧
    t.regs.fbuf = s.regs.fbuf ∧ t.regs.curBit = s.regs.curBit ∧
    t.regs.lvlStcp = s.regs.lvlStcp ∧ t.dev.pStcp = s.dev.pStcp ∧
    (s.regs.cfgPwrEn = false ∨ s.params.pwrQ = .hold → t.dev.q = s.dev.q) ∧
    (s.regs.cfgPwrEn = false → t.regs.lvlPwr = s.regs.lvlPwr ∧ t.dev.pPwr = s.dev.pPwr) ∧ SameSurroundings s t

/-- RELEASE: the configuration stays readable, the latches stay (42_clear_release R164, 10_state R44). -/
def Obligations.ReleaseFrame : Prop :=
  ∀ (s t : State), s.cmdReady = true → exec .release s = .next t →
    SameConfig s.regs t.regs ∧ t.regs.fbuf = s.regs.fbuf ∧ t.regs.curBit = s.regs.curBit ∧
    (t.regs.life = s.regs.life ∧ t.regs.claimed = s.regs.claimed ∨
      t.regs.life = .released ∧ t.regs.claimed = false) ∧ SameSurroundings s t

/-! ### Reset -/

/-- Every register of the reset state is at the spec's reset value, and the words and wires computed from them
too, and the trace is empty (70_reset_and_hazards R250, 20_memory R77). The number of FBUF elements is the build's WMAX, which log entry 2 takes as 255
there. -/
def Obligations.ResetStateValues : Prop :=
  State.reset.regs =
    { life := .unconfigured, busy := false, claimed := false, lastStatus := .ok,
      cfgDataLine := 0, cfgStcpLine := 0, cfgShcpLine := 0, cfgPwrLine := 0, cfgPwrEn := false,
      cfgWidth := 0, cfgWarn := false, curOp := 0, fbuf := List.replicate State.reset.params.wmax false,
      curBit := false, seq := [], k := 0, relErr := false, lvlData := .x, lvlShcp := .x, lvlStcp := .x,
      lvlPwr := .x, doneValid := false, doneStatus := .ok } ∧
  State.reset.regs.statusWord = 0xAA00_0000 ∧ State.reset.regs.cfgWord = 0 ∧
  State.reset.regs.request = ⟨false, 0b00, 0, false⟩ ∧ State.reset.regs.gpioWarnEn = false ∧
  State.reset.trace = []

/-- An edge with `RST_N = 0` puts every register at its reset value whatever the other inputs and the state are;
while the pin is low `CMD_READY = 0`, and once it is high `CMD_READY = 1` (70_reset_and_hazards R250, R253). -/
def Obligations.ResetEdgeValues : Prop :=
  ∀ (s : State), 0 < s.port.rstLow →
    s.cmdReady = false ∧
    ∃ t, step s = .next t ∧
      t.regs =
        { life := .unconfigured, busy := false, claimed := false, lastStatus := .ok,
          cfgDataLine := 0, cfgStcpLine := 0, cfgShcpLine := 0, cfgPwrLine := 0, cfgPwrEn := false,
          cfgWidth := 0, cfgWarn := false, curOp := 0, fbuf := List.replicate s.params.wmax false, curBit := false,
          seq := [], k := 0, relErr := false, lvlData := .x, lvlShcp := .x, lvlStcp := .x, lvlPwr := .x,
          doneValid := false, doneStatus := .ok } ∧
      t.regs.statusWord = 0xAA00_0000 ∧ t.regs.cfgWord = 0 ∧ t.regs.request.valid = false ∧
      t.regs.gpioWarnEn = false ∧ (s.port.rstLow = 1 → t.cmdReady = true)

/-- Reset issues no transaction; with no command in flight it does not touch the device; in the middle of a command
the request is withdrawn, no response is given, every line and cell counts as unknown, and a late answer is ignored
(70_reset_and_hazards R251, R252; 60_exceptions R229). That the trace starts anew is log entry 8. -/
def Obligations.ResetAndTheDevice : Prop :=
  ∀ (s : State), 0 < s.port.rstLow →
    ∃ t, step s = .next t ∧ t.trace = [] ∧
      (s.regs.busy = false → t.dev = s.dev) ∧
      (s.regs.busy = true →
        t.regs.request = noRequest ∧ t.regs.doneValid = false ∧
        t.dev = { sr := List.replicate s.dev.sr.length .x, q := List.replicate s.dev.q.length .x,
                  pData := .x, pShcp := .x, pStcp := .x, pPwr := .x } ∧
        ∀ a, (answerEdge a t).regs = t.regs ∧ (answerEdge a t).dev = t.dev)

/-! ### Words and wires -/

/-- The fields of STATUS and CFGW, the reserved field reading 0, `GPIO_WARN_EN` equal to `CFG_WARN` at all times, and
their reset values (10_state R52, R53, R57); and the codes that stand in the fields, of the lifecycle (10_state R33), of
the shadows (10_state R51) and of the status (60_exceptions R220). -/
def Obligations.StatusAndConfigWords : Prop :=
  (∀ r : Regs,
    r.statusWord.extractLsb' 0 2 = r.life.code ∧
    r.statusWord.getLsbD 2 = r.busy ∧
    r.statusWord.getLsbD 3 = r.claimed ∧
    r.statusWord.extractLsb' 4 4 = r.lastStatus.code ∧
    r.statusWord.getLsbD 8 = r.cfgPwrEn ∧
    r.statusWord.getLsbD 9 = r.cfgWarn ∧
    r.statusWord.extractLsb' 10 6 = 0 ∧
    r.statusWord.extractLsb' 16 8 = r.cfgWidth ∧
    r.statusWord.extractLsb' 24 2 = r.lvlData.code ∧
    r.statusWord.extractLsb' 26 2 = r.lvlShcp.code ∧
    r.statusWord.extractLsb' 28 2 = r.lvlStcp.code ∧
    r.statusWord.extractLsb' 30 2 = r.lvlPwr.code ∧
    r.cfgWord.extractLsb' 0 8 = r.cfgDataLine ∧
    r.cfgWord.extractLsb' 8 8 = r.cfgStcpLine ∧
    r.cfgWord.extractLsb' 16 8 = r.cfgShcpLine ∧
    r.cfgWord.extractLsb' 24 8 = r.cfgPwrLine ∧
    r.gpioWarnEn = r.cfgWarn) ∧
  (∀ wmax : Nat, (Regs.reset wmax).statusWord = 0xAA00_0000 ∧ (Regs.reset wmax).cfgWord = 0x0000_0000 ∧
    (Regs.reset wmax).gpioWarnEn = false) ∧
  (Life.unconfigured.code = 0 ∧ Life.ready.code = 1 ∧ Life.released.code = 2) ∧
  (Level.low.code = 0b00 ∧ Level.high.code = 0b01 ∧ Level.x.code = 0b10 ∧ Level.u.code = 0b11) ∧
  Status.ok.code = 0 ∧ Status.configError.code = 1 ∧ Status.invalidBit.code = 2 ∧ Status.backendIo.code = 3 ∧
  Status.frameLength.code = 4 ∧ Status.stateError.code = 5 ∧ Status.illegalCmd.code = 6

/-- The backend request outputs follow `SEQ[K]` while `BUSY = 1` and are all 0 otherwise; `REQ_OP = 0b11` is never
driven (10_state R55). -/
def Obligations.RequestOutputsFollowSeq : Prop :=
  ∀ r : Regs,
    (r.busy = false → r.request = ⟨false, 0b00, 0, false⟩) ∧
    (∀ t, r.busy = true → r.seq[r.k]? = some t →
      r.request.valid = true ∧
      (∀ role, t = .configure role → r.request.op = 0b00 ∧ r.request.val = false) ∧
      (∀ role v, t = .write role v → r.request.op = 0b01 ∧ r.request.val = v) ∧
      (t = .releaseAll → r.request.op = 0b10 ∧ r.request.line = 0 ∧ r.request.val = false) ∧
      (∀ v, t = .configure .data ∨ t = .write .data v → r.request.line = r.cfgDataLine) ∧
      (∀ v, t = .configure .shcp ∨ t = .write .shcp v → r.request.line = r.cfgShcpLine) ∧
      (∀ v, t = .configure .stcp ∨ t = .write .stcp v → r.request.line = r.cfgStcpLine) ∧
      (∀ v, t = .configure .pwr ∨ t = .write .pwr v → r.request.line = r.cfgPwrLine)) ∧
    r.request.op ≠ 0b11

/-! ### The sequencer -/

/-- The edge at which a transaction is answered updates the shadows: a write's level on OK, X on ERR; X on a
configure; U on all after a release, X if it failed; the other roles keep theirs (20_memory R81). -/
def Obligations.AnswerUpdatesShadows : Prop :=
  ∀ (s : State) (t : Txn) (a : Answer), s.regs.busy = true → s.regs.seq[s.regs.k]? = some t →
    (∀ role v, t = .write role v →
      (answerEdge a s).regs.lvl role = (if a = .ok then Level.ofBool v else .x) ∧
      ∀ other, other ≠ role → (answerEdge a s).regs.lvl other = s.regs.lvl other) ∧
    (∀ role, t = .configure role →
      (answerEdge a s).regs.lvl role = .x ∧
      ∀ other, other ≠ role → (answerEdge a s).regs.lvl other = s.regs.lvl other) ∧
    (t = .releaseAll → ∀ role, (answerEdge a s).regs.lvl role = if a = .ok then .u else .x)

/-- OK with a transaction to follow: `K` advances by one and the command stays in flight. OK at the end of `SEQ`:
the command ends, with BACKEND_IO exactly if `REL_ERR` is set, and with the end actions of its opcode: INIT that ends
with OK goes to READY; RELEASE goes to RELEASED with nothing claimed, also where its clear phase failed and the status
is BACKEND_IO; every other command keeps the lifecycle and the ownership (30_encoding R116, 40_init R133,
42_clear_release R165). -/
def Obligations.OkAnswerAdvancesOrResponds : Prop :=
  ∀ (s : State) (t : Txn), s.regs.busy = true → s.regs.seq[s.regs.k]? = some t →
    (s.regs.k + 1 < s.regs.seq.length →
      (answerEdge .ok s).regs.busy = true ∧ (answerEdge .ok s).regs.k = s.regs.k + 1 ∧
      (answerEdge .ok s).regs.seq = s.regs.seq ∧ (answerEdge .ok s).regs.doneValid = false ∧
      (answerEdge .ok s).regs.lastStatus = s.regs.lastStatus) ∧
    (s.regs.seq.length = s.regs.k + 1 →
      (answerEdge .ok s).regs.busy = false ∧ (answerEdge .ok s).regs.doneValid = true ∧
      (answerEdge .ok s).regs.doneStatus = (if s.regs.relErr then .backendIo else .ok) ∧
      (answerEdge .ok s).regs.lastStatus = (answerEdge .ok s).regs.doneStatus ∧
      (answerEdge .ok s).regs.life =
        (if s.regs.curOp = 1 ∧ s.regs.relErr = false then .ready
          else if s.regs.curOp = 8 then .released else s.regs.life) ∧
      (answerEdge .ok s).regs.claimed = (if s.regs.curOp = 8 then false else s.regs.claimed) ∧
      SameConfig s.regs (answerEdge .ok s).regs)

/-- ERR on any command but RELEASE, and on the `ReleaseAll` of RELEASE, ends the command at once with BACKEND_IO;
INIT falls back to UNCONFIGURED, otherwise the lifecycle stays, and ownership and configuration stay. The failed
transaction's line, and what it can have changed in the device, is at an unknown level, and all else of the device is as
it was (60_exceptions R225, R227; 42_clear_release R167; 20_memory R89 to R94). -/
def Obligations.BackendErrorAborts : Prop :=
  ∀ (s : State) (t : Txn), s.regs.busy = true → s.regs.seq[s.regs.k]? = some t →
    (s.regs.curOp = 8 → t = .releaseAll) →
    (answerEdge .err s).regs.busy = false ∧ (answerEdge .err s).regs.doneValid = true ∧
    (answerEdge .err s).regs.doneStatus = .backendIo ∧ (answerEdge .err s).regs.lastStatus = .backendIo ∧
    (answerEdge .err s).regs.life = (if s.regs.curOp = 1 then .unconfigured else s.regs.life) ∧
    (answerEdge .err s).regs.claimed = s.regs.claimed ∧ SameConfig s.regs (answerEdge .err s).regs ∧
    (answerEdge .err s).trace = s.trace ++ [(t, .err)] ∧
    (answerEdge .err s).dev = s.dev.afterErr s.params.pwrQ s.regs.cfgPwrEn t

/-- ERR in the clear phase of RELEASE: the rest of the phase is skipped, the error is remembered, and the next
request is the last transaction of `SEQ`, the `ReleaseAll` (42_clear_release R166); the device is as after every failed
transaction (20_memory R89 to R93). -/
def Obligations.ReleaseGoesOnAfterClearError : Prop :=
  ∀ (s : State) (l : List Txn) (t : Txn), s.regs.busy = true → s.regs.curOp = 8 →
    s.regs.seq = l ++ [.releaseAll] → s.regs.seq[s.regs.k]? = some t → t ≠ .releaseAll →
    (answerEdge .err s).regs.busy = true ∧ (answerEdge .err s).regs.relErr = true ∧
    (answerEdge .err s).regs.k = s.regs.seq.length - 1 ∧
    (answerEdge .err s).regs.outstanding = some .releaseAll ∧
    (answerEdge .err s).regs.lastStatus = s.regs.lastStatus ∧
    (answerEdge .err s).trace = s.trace ++ [(t, .err)] ∧
    (answerEdge .err s).dev = s.dev.afterErr s.params.pwrQ s.regs.cfgPwrEn t

/-- INIT whose transaction `j` is answered ERR: it is the last one issued, the status is BACKEND_IO, the lifecycle
UNCONFIGURED, the lines stay claimed and the configuration stays written; INIT is admitted again, and a RELEASE would
issue `ReleaseAll` alone (40_init R134). -/
def Obligations.InitAbortsOnBackendError : Prop :=
  ∀ (s : State) (pwrEn warn : Bool) (width : BitVec 8) (d st sh pw : LineId) (j : Nat) (e : Txn),
    s.cmdReady = true → s.regs.life ≠ .ready → 1 ≤ width.toNat → width.toNat ≤ s.params.wmax →
    d ≠ st → d ≠ sh → st ≠ sh → (pwrEn = true → pw ≠ d ∧ pw ≠ st ∧ pw ≠ sh) →
    (initSeq pwrEn)[j]? = some e → BackendAnswers (List.replicate j .ok ++ [.err]) s →
    ∃ t, exec (.init pwrEn warn width d st sh pw) s = .next t ∧
      t.regs.busy = false ∧ t.regs.lastStatus = .backendIo ∧ t.regs.doneStatus = .backendIo ∧
      t.regs.doneValid = true ∧ t.regs.life = .unconfigured ∧ t.regs.claimed = true ∧
      t.regs.cfgWidth = width ∧ t.regs.cfgDataLine = d ∧ t.regs.cfgStcpLine = st ∧ t.regs.cfgShcpLine = sh ∧
      t.regs.cfgPwrLine = pw ∧ t.regs.cfgPwrEn = pwrEn ∧ t.regs.cfgWarn = warn ∧
      t.trace = s.trace ++ okTrace ((initSeq pwrEn).take j) ++ [(e, .err)] ∧
      admitted 1 t.regs.life = true ∧ releaseSeq t.regs = [.releaseAll]

/-! ### Rules of the whole machine -/

/-- The reset state meets the invariant. The values of the parameters there are the model's (log entry 2). -/
def Obligations.ResetMeetsInvariant : Prop := Inv State.reset

/-- Every step keeps the invariant: a READY block has claimed lines and a legal configuration, a response and a
command in flight exclude each other, a command in flight points into its transaction list, and what the host awaits in
its release duty is a RELEASE, or after a reset an INIT before it (10_state R33 to R49, R54; 60_exceptions R222;
45_host_sequencer R194; 70_reset_and_hazards R262). That the host issues an INIT anew after a reset is the model's choice
of R262's two ways (log entry 4); the bound on `SEQ` is R47's as log entry 7 has it. -/
def Obligations.StepKeepsInvariant : Prop := ∀ s t : State, Inv s → step s = .next t → Inv t

/-- No step stops the machine from a state that meets the invariant: the block always has a next state, and a
backend that does not answer leaves it waiting (70_reset_and_hazards R263; log entry 5). -/
def Obligations.InvariantNeverStops : Prop := ∀ s : State, Inv s → ∃ t, step s = .next t

/-- Outside reset the configuration changes only at the acceptance of an INIT in UNCONFIGURED or RELEASED that
passes its check (10_state R44). -/
def Obligations.ConfigChangesOnlyByInit : Prop :=
  ∀ s t : State, s.port.rstLow = 0 → step s = .next t → ¬ SameConfig s.regs t.regs →
    s.regs.busy = false ∧ s.port.cmdValid = true ∧ s.regs.life ≠ .ready ∧
    ∃ pwrEn warn width d st sh pw, fetchCommand s = .ok (.init pwrEn warn width d st sh pw) ∧
      1 ≤ width.toNat ∧ width.toNat ≤ s.params.wmax ∧ d ≠ st ∧ d ≠ sh ∧ st ≠ sh ∧
      (pwrEn = true → pw ≠ d ∧ pw ≠ st ∧ pw ≠ sh)

/-- Outside reset, and while the invariant holds, the lifecycle changes only so: to READY when an INIT ends with OK;
to UNCONFIGURED when an INIT ends with BACKEND_IO; to RELEASED when a RELEASE ends, and then nothing is claimed
(10_state R33, R35). -/
def Obligations.LifecycleTransitions : Prop :=
  ∀ s t : State, Inv s → s.port.rstLow = 0 → step s = .next t → t.regs.life ≠ s.regs.life →
    t.regs.busy = false ∧ t.regs.doneValid = true ∧
    ((t.regs.life = .ready ∧ t.regs.curOp = 1 ∧ t.regs.lastStatus = .ok) ∨
      (t.regs.life = .unconfigured ∧ t.regs.curOp = 1 ∧ t.regs.lastStatus = .backendIo) ∨
      (t.regs.life = .released ∧ t.regs.curOp = 8 ∧ t.regs.claimed = false))

/-- Outside reset the trace only grows. A command that is accepted issues its `SEQ` in order from the start, one that
goes on in a later step continues its `SEQ` from `K`; only the last transaction issued can have failed, but that a
RELEASE whose clear phase fails goes on with its `ReleaseAll` alone (20_memory R77, 42_clear_release R166). -/
def Obligations.TraceFollowsSeq : Prop :=
  (∀ s t : State, s.port.rstLow = 0 → step s = .next t → ∃ l, t.trace = s.trace ++ l) ∧
  (∀ (s t : State) (i : Instr), s.cmdReady = true → rowOf i ≠ releaseRow → exec i s = .next t →
    ∃ l, t.trace = s.trace ++ l ∧ InOrder t.regs.seq l) ∧
  (∀ s t : State, s.cmdReady = true → exec .release s = .next t →
    ∃ l, t.trace = s.trace ++ l ∧ ReleaseInOrder t.regs.seq l) ∧
  (∀ s t : State, s.port.rstLow = 0 → s.regs.busy = true → s.regs.curOp ≠ 8 → step s = .next t →
    t.regs.seq = s.regs.seq ∧ ∃ l, t.trace = s.trace ++ l ∧ InOrder (s.regs.seq.drop s.regs.k) l) ∧
  (∀ s t : State, Inv s → s.port.rstLow = 0 → s.regs.busy = true → s.regs.curOp = 8 → step s = .next t →
    t.regs.seq = s.regs.seq ∧ ∃ l, t.trace = s.trace ++ l ∧ ReleaseInOrder (s.regs.seq.drop s.regs.k) l)

/-- A command that has ended took one clock edge for its acceptance and one for each transaction it issued, the
backend having answered at every edge (70_reset_and_hazards R267). -/
def Obligations.EdgesOfACommand : Prop :=
  ∀ (s t : State) (i : Instr), s.cmdReady = true → exec i s = .next t → t.regs.busy = false →
    ∃ l, t.trace = s.trace ++ l ∧ t.cycle = s.cycle + 1 + l.length

/-- Latency changes nothing but time: leaving out the edges at which the backend does not answer leaves the
registers (DONE_VALID, which lasts one edge, apart), the device and the trace the same (30_encoding R117). -/
def Obligations.LatencyDoesNotMatter : Prop :=
  ∀ (rs : List (Option Answer)) (s : State),
    (clockRun (rs.map rspInputs) s).regs.tick =
        (clockRun ((rs.filter Option.isSome).map rspInputs) s).regs.tick ∧
      (clockRun (rs.map rspInputs) s).dev = (clockRun ((rs.filter Option.isSome).map rspInputs) s).dev ∧
      (clockRun (rs.map rspInputs) s).trace = (clockRun ((rs.filter Option.isSome).map rspInputs) s).trace

/-- Every step is a run of clock edges of the block at its ports: the first edge finds the reset pin and the command
port as `State.port` says, every edge with a request outstanding finds the answer the model draws, and registers,
device, trace and edge count after the run are the step's (30_encoding R116, R117; 60_exceptions R223). How many edges
make a step is log entry 5. -/
def Obligations.StepIsClockEdges : Prop :=
  ∀ s t : State, step s = .next t →
    ∃ (first : Inputs) (n : Nat),
      first.rstN = decide (s.port.rstLow = 0) ∧ first.cmdValid = s.port.cmdValid ∧
      first.cmdHdr = s.port.cmdHdr ∧ first.cmdFrame = s.port.cmdFrame ∧
      (if first.rspValid then some (if first.rspErr then Answer.err else .ok) else none) = s.nextRsp ∧
      ∀ u, u = clockRun (first ::
          (rspAhead n (if s.regs.busy then s.draws.tail else s.draws) (s.cycle + 1)).map rspInputs) s →
        u.regs = t.regs ∧ u.dev = t.dev ∧ u.trace = t.trace ∧ u.cycle = t.cycle

/-- One clock edge in the spec's priority: reset first; then an acceptance, only while BUSY = 0; then an answer, only
while BUSY = 1; any other edge moves only DONE_VALID. While BUSY = 0 the answer port has no effect at all, and while
BUSY = 1 the command port has none (60_exceptions R223, R229). -/
def Obligations.ClockEdgePriority : Prop :=
  ∀ (s : State) (inp : Inputs),
    (inp.rstN = false → (clockEdge inp s).regs = Regs.reset s.params.wmax) ∧
    (inp.rstN = true → s.regs.busy = false → inp.cmdValid = true →
      clockEdge inp s = acceptCommand inp.cmdHdr inp.cmdFrame s) ∧
    (inp.rstN = true → s.regs.busy = true → inp.rspValid = true →
      clockEdge inp s = answerEdge (if inp.rspErr then .err else .ok) s) ∧
    (inp.rstN = true →
      (s.regs.busy = false ∧ inp.cmdValid = false) ∨ (s.regs.busy = true ∧ inp.rspValid = false) →
      (clockEdge inp s).regs = { s.regs with doneValid := false } ∧ (clockEdge inp s).dev = s.dev ∧
      (clockEdge inp s).trace = s.trace) ∧
    (s.regs.busy = false → ∀ valid err,
      clockEdge { inp with rspValid := valid, rspErr := err } s = clockEdge inp s) ∧
    (s.regs.busy = true → ∀ valid hdr frame,
      clockEdge { inp with cmdValid := valid, cmdHdr := hdr, cmdFrame := frame } s = clockEdge inp s)

/-! ### The device -/

/-- In READY, with the lines at their idle levels, every command but INIT and RELEASE that is answered OK throughout
(or refused) leaves the lines at their idle levels and READY (20_memory R93). -/
def Obligations.HealthyCommandsKeepLines : Prop :=
  ∀ (s t : State) (i : Instr), ReadyForCommand s → LinesKnown s → rowOf i ≠ releaseRow →
    exec i s = .next t → t.regs.busy = false → t.regs.lastStatus ≠ .backendIo →
    LinesKnown t ∧ ReadyForCommand t

/-- LOAD_FRAME of `F` then STORE shows exactly `F`, for every frame of the configured width, on a healthy backend
with a matched device whose lines are at their idle levels, as INIT and every healthy command after it leave them
(41_bit_protocol R146; 20_memory R93, R95). -/
def Obligations.LoadThenStoreShowsFrame : Prop :=
  ∀ (s : State) (f : List Bool) (p : Payload), ReadyForCommand s → 1 ≤ s.regs.width →
    f.length = s.regs.width → CarriesFrame f p → MatchedDevice s → LinesKnown s →
    Healthy (4 * s.regs.width) s →
    ∃ t, exec (.loadFrame s.regs.cfgWidth p) s = .next t ∧ t.dev.q = s.dev.q ∧
      (Healthy 2 t → ∃ u, exec .store t = .next u ∧ u.regs.lastStatus = .ok ∧
        u.dev.out u.regs.width = cellsOf f)

/-- CLEAR then STORE shows all zeros whatever the register held, with either strategy and either `PWR_Q_EFFECT`, from
lines at their idle levels, as INIT and every healthy command after it leave them (20_memory R93);
before the STORE the register is all zero, and the outputs are unchanged unless `PWR_Q_EFFECT = UNKNOWN` with a
power line (42_clear_release R163). -/
def Obligations.ClearThenStoreShowsZeros : Prop :=
  ∀ (s : State), ReadyForCommand s → 1 ≤ s.regs.width → MatchedDevice s → LinesKnown s →
    Healthy (if s.regs.cfgPwrEn then 5 else 4 * s.regs.width) s →
    ∃ t, exec .clear s = .next t ∧
      t.dev.srv t.regs.width = List.replicate s.regs.width .zero ∧ t.dev.pData = .zero ∧ t.dev.pShcp = .zero ∧
      (s.regs.cfgPwrEn = true → t.dev.pPwr = .one) ∧
      (s.regs.cfgPwrEn = false ∨ s.params.pwrQ = .hold → t.dev.q = s.dev.q) ∧
      (s.regs.cfgPwrEn = true → s.params.pwrQ = .unknown → t.dev.q = List.replicate s.regs.width .x) ∧
      (Healthy 2 t → ∃ u, exec .store t = .next u ∧
        u.dev.out u.regs.width = List.replicate s.regs.width .zero)

/-- The raw protocol, SET_BIT, SHIFT, CLEAR_DATA for each element, issues the transactions of LOAD_FRAME in the same
order and leaves the same device and shadows; it takes three acceptances an element where the load takes one
(41_bit_protocol R147). -/
def Obligations.RawProtocolEqualsLoad : Prop :=
  ∀ (s : State) (f : List Bool) (p : Payload) (ds : List (Option Answer)), ReadyForCommand s →
    1 ≤ s.regs.width → f.length = s.regs.width → CarriesFrame f p →
    s.draws = List.replicate (4 * s.regs.width) (some .ok) ++ ds →
    ∃ t u, rawLoad f s = some t ∧ exec (.loadFrame s.regs.cfgWidth p) s = .next u ∧
      t.trace = u.trace ∧ t.dev = u.dev ∧ (∀ role, t.regs.lvl role = u.regs.lvl role) ∧
      t.cycle = s.cycle + 3 * s.regs.width + 4 * s.regs.width ∧ u.cycle = s.cycle + 1 + 4 * s.regs.width

/-- A command that ended with BACKEND_IO leaves UNCONFIGURED with lines claimed if it was an INIT, and the lifecycle and
ownership as they were if it was any other but RELEASE; and after any command that ended so, a RELEASE on a backend that
answers OK ends with OK, RELEASED, nothing claimed (42_clear_release R169). -/
def Obligations.ReleaseSucceedsAfterError : Prop :=
  ∀ (s t : State) (i : Instr), s.cmdReady = true → exec i s = .next t → t.regs.busy = false →
    t.regs.lastStatus = .backendIo →
    (rowOf i = initRow → t.regs.life = .unconfigured ∧ t.regs.claimed = true) ∧
    (rowOf i ≠ initRow → rowOf i ≠ releaseRow →
      t.regs.life = s.regs.life ∧ t.regs.claimed = s.regs.claimed) ∧
    (Healthy (if t.regs.life = .ready then (if t.regs.cfgPwrEn then 6 else 4 * t.regs.width + 1) else 1) t →
      ∃ u, exec .release t = .next u ∧ u.regs.lastStatus = .ok ∧ u.regs.life = .released ∧
        u.regs.claimed = false)

/-! ### The host -/

/-- What each pattern call renders, and in which order: `fillBar` the frames `A_k[i] = 1 iff i ≤ k`, with `persist` the
last one, all ones, left lit; `fillBarWalkthrough` the persisting `fillBar` and then `D_j[i] = 1 iff i > j`; `barWave`
`A_k` then `D_j`, each with clear and hold; `bitRun` `B_k[i] = 1 iff i = k` then all zero; `skipAcross` the literal loop
`S_x[i] = 1 iff i = x - (x mod 2)` (45_host_sequencer R186 to R190). -/
def Obligations.PatternFrames : Prop :=
  ∀ (w : Nat) (dir : Dir) (d : Nat),
    risingFrames w = (List.range w).map (fun k => (List.range w).map fun i => decide (i ≤ k)) ∧
    fallingFrames w = (List.range w).map (fun j => (List.range w).map fun i => decide (j < i)) ∧
    bitRunFrames w = (List.range w).map (fun k => (List.range w).map fun i => decide (i = k))
      ++ [List.replicate w false] ∧
    skipFrames w = (List.range w).map (fun x => (List.range w).map fun i => decide (i = x - x % 2)) ∧
    patternActs w (.fillBar false) dir d = (risingFrames w).map (fun f => .renderFrame f dir d) ∧
    patternActs w (.fillBar true) dir d =
      ((risingFrames w).take (w - 1)).map (fun f => .renderFrame f dir d)
        ++ (if w = 0 then [] else [.renderLit (List.replicate w true) dir]) ∧
    patternActs w .fillBarWalkthrough dir d =
      patternActs w (.fillBar true) dir d ++ (fallingFrames w).map (fun f => .renderFrame f dir d) ∧
    patternActs w .barWave dir d =
      (risingFrames w).map (fun f => .renderFrame f dir d) ++ (fallingFrames w).map (fun f => .renderFrame f dir d) ∧
    patternActs w .bitRun dir d = (bitRunFrames w).map (fun f => .renderFrame f dir d) ∧
    patternActs w .skipAcross dir d = (skipFrames w).map (fun f => .renderFrame f dir d)

/-- The numbers of commands, and of rendered frames, of the pattern calls when every response is OK
(45_host_sequencer R191). -/
def Obligations.PatternCommandCounts : Prop :=
  ∀ (w : Nat) (dir : Dir) (d : Nat), 1 ≤ w →
    (patternCmds w (.fillBar false) dir d).length = 4 * w ∧
    (patternCmds w (.fillBar true) dir d).length = 4 * (w - 1) + 2 ∧
    (patternCmds w .fillBarWalkthrough dir d).length = 4 * (w - 1) + 2 + 4 * w ∧
    (patternCmds w .barWave dir d).length = 8 * w ∧
    (patternCmds w .bitRun dir d).length = 4 * (w + 1) ∧
    (patternCmds w .skipAcross dir d).length = 4 * w ∧
    (∀ persist, (patternActs w (.fillBar persist) dir d).length = w) ∧
    (patternActs w .fillBarWalkthrough dir d).length = 2 * w ∧
    (patternActs w .barWave dir d).length = 2 * w ∧
    (patternActs w .bitRun dir d).length = w + 1 ∧
    (patternActs w .skipAcross dir d).length = w

/-- One rendered frame: LOAD_FRAME of the oriented frame, STORE, CLEAR, the hold, STORE; on a healthy backend
the outputs show the oriented frame from the first STORE until the second, and zeros after it
(45_host_sequencer R184). -/
def Obligations.RenderFrameShowsThenBlanks : Prop :=
  ∀ (s : State) (f : List Bool) (dir : Dir) (d : Nat), ReadyForCommand s → 1 ≤ s.regs.width →
    f.length = s.regs.width → MatchedDevice s → LinesKnown s → s.params.pwrQ = .hold →
    orient .leftToRight f = f.reverse ∧ orient .rightToLeft f = f ∧
    renderFrameActs f dir d =
      [cmdAct (loadInstr (orient dir f)), cmdAct .store, cmdAct .clear, .hold d, cmdAct .store] ∧
    (Healthy (4 * s.regs.width) s →
      ∃ s1, exec (loadInstr (orient dir f)) s = .next s1 ∧ s1.dev.q = s.dev.q ∧
        (Healthy 2 s1 →
          ∃ s2, exec .store s1 = .next s2 ∧ s2.dev.out s.regs.width = cellsOf (orient dir f) ∧
            (Healthy (if s.regs.cfgPwrEn then 5 else 4 * s.regs.width) s2 →
              ∃ s3, exec .clear s2 = .next s3 ∧ s3.dev.out s.regs.width = cellsOf (orient dir f) ∧
                (Healthy 2 s3 →
                  ∃ s4, exec .store s3 = .next s4 ∧
                    s4.dev.out s.regs.width = List.replicate s.regs.width .zero))))

/-- The host's duties toward the block. One that awaits a response does nothing until `DONE_VALID`, or, if it reads
`LAST_STATUS` instead, until its command is off the port and `BUSY = 0`, and the status it then reads stands however many
edges it lets pass. A command on the port stays there unchanged while the block cannot accept it, in reset too. A command
other than INIT and RELEASE is presented only in a lifetime that an INIT has begun and neither a RELEASE nor a reset has
ended, save that an INIT not yet accepted at a reset begins the next lifetime; and the response of an accepted command that
a reset dropped is awaited no longer (45_host_sequencer R181, R195; 70_reset_and_hazards R252, R254, R258; how many edges a
host lets pass, and that it waits no longer, also where the response stands at the reset edge, is log entry 4). -/
def Obligations.HostWaitsAndHoldsItsCommand : Prop :=
  (∀ s t : State, step s = .next t → s.port.rstLow = 0 → s.host.awaiting = true →
    ((s.host.readsStatus = false ∧ s.regs.doneValid = false) ∨
      (s.host.readsStatus = true ∧ (s.regs.busy = true ∨ s.port.cmdValid = true))) →
    t.host = s.host ∧ (s.port.cmdValid = false → t.port.cmdValid = false)) ∧
  (∀ (s t : State) (n : Nat) (ms : List Nat), step s = .next t → s.cmdReady = true → s.port.cmdValid = false →
    s.host.awaiting = true → s.host.readsStatus = true → s.host.misses = (n + 1) :: ms →
    t.host = { s.host with misses := n :: ms } ∧ t.port = s.port ∧ t.regs.lastStatus = s.regs.lastStatus) ∧
  (∀ s t : State, step s = .next t → s.port.cmdValid = false → t.port.cmdValid = true →
    t.host.awaiting = true ∧
    (opOf t.port.cmdHdr = 0x1 ∨ opOf t.port.cmdHdr = 0x8 ∨ s.host.inited = true) ∧
    t.host.inited = decide (opOf t.port.cmdHdr ≠ 0x8)) ∧
  (∀ s t : State, step s = .next t → s.port.rstLow = 0 → s.port.cmdValid = true ∨ t.port.cmdValid = false →
    t.host.inited = s.host.inited) ∧
  (∀ s t : State, step s = .next t → 0 < s.port.rstLow →
    (t.host.inited = true ↔ s.host.awaiting = true ∧ s.port.cmdValid = true ∧ opOf s.port.cmdHdr = 0x1) ∧
    (t.host.awaiting = true ↔ s.host.awaiting = true ∧ s.port.cmdValid = true)) ∧
  (∀ s t : State, step s = .next t → s.cmdReady = false →
    t.port.cmdValid = s.port.cmdValid ∧ t.port.cmdHdr = s.port.cmdHdr ∧ t.port.cmdFrame = s.port.cmdFrame)

/-- A response that is not OK ends the host's program at once: nothing of its plan is left, the status is kept for
the report, and the next command on the port is RELEASE; but where nothing is claimed and a reset had left the lines of
an INIT claimed, it is that INIT again (45_host_sequencer R183, R194; 70_reset_and_hazards R262). At which edge it is presented, that
the host issues the INIT anew, of R262's two ways, and that the failed response comes before a pending interrupt are
the model's choices (log entry 4). -/
def Obligations.HostReleasesOnFailure : Prop :=
  ∀ (s : State) (code : Status), s.cmdReady = true → s.port.cmdValid = false → HostSees code s → code ≠ .ok →
    s.host.stage = .running ∨ s.host.stage = .shutdown →
    ∃ t, step s = .next t ∧ t.host.plan = [] ∧ t.host.stage = .releasing ∧
      t.host.reported = some code ∧ t.host.awaiting = true ∧
      t.port.cmdValid = true ∧
      (s.regs.claimed = true ∨ s.host.cut = [] → fetchCommand t = .ok .release) ∧
      (∀ c l, s.regs.claimed = false → s.host.cut = c :: l → fetchCommand t = .ok (hostInit c))

/-- An interrupt, once no response is awaited, ends a hold and the pattern and starts the shutdown sequence: both
directions of bitRun, CLEAR, STORE (45_host_sequencer R193; that left to right comes first is the spec's choice,
92_eei_decisions D30; when the interrupt is taken is log entry 4). -/
def Obligations.InterruptStartsShutdown : Prop :=
  ∀ s : State, s.cmdReady = true → s.port.cmdValid = false → s.host.awaiting = false →
    s.host.stage = .running → s.host.interrupt = true →
    ∃ t, step s = .next t ∧ t.host.stage = .shutdown ∧ t.host.holdLeft = 0 ∧ t.host.interrupted = true ∧
      t.port.cmdValid = false ∧
      t.host.plan = [.pattern .bitRun .leftToRight s.params.shutdownHold,
        .pattern .bitRun .rightToLeft s.params.shutdownHold,
        .cmd 0x0000_0000_0000_0007 0, .cmd 0x0000_0000_0000_0006 0]

/-- Release pairing. While the invariant holds the host ends only from its release duty, when it sees the response to a
RELEASE (`CUR_OP = 8`), with no line left that a reset left claimed, and with `LIFE = RELEASED`, or else owing no release,
the block not READY and no more tries. A release is owed from the response at which the host finds the block READY, or a
reset that finds it so, until a response at which it finds it RELEASED with no such line left. The lines the block has
claimed at a reset are left to be claimed anew, and an INIT of which lines are left is so until a response, or a further
reset, at which the block has claimed them, the reset then leaving the block's own INIT in its place (45_host_sequencer
R194; 70_reset_and_hazards R259, R262; the number of tries, the INIT anew of R262's two ways, and the lines of an INIT that
did not succeed, are log entry 4). -/
def Obligations.HostEndsOnlyAfterRelease : Prop :=
  ∀ s t : State, Inv s → step s = .next t →
    (t.host.stage = .exited → s.host.stage ≠ .exited →
      s.host.stage = .releasing ∧ s.cmdReady = true ∧ s.port.cmdValid = false ∧ s.regs.curOp = 8 ∧
      (∃ code, HostSees code s) ∧ t.host.cut = [] ∧
      (s.regs.life = .released ∨ (s.host.owes = false ∧ s.regs.life ≠ .ready ∧ s.host.retries = 0))) ∧
    (s.cmdReady = true → s.port.cmdValid = false → (∃ code, HostSees code s) → s.regs.life = .ready →
      t.host.owes = true) ∧
    (0 < s.port.rstLow → s.regs.life = .ready → t.host.owes = true) ∧
    (s.host.owes = true → t.host.owes = false →
      s.cmdReady = true ∧ (∃ code, HostSees code s) ∧ s.regs.life = .released ∧ t.host.cut = []) ∧
    (0 < s.port.rstLow → s.regs.claimed = true → s.regs.hostConfig ∈ t.host.cut) ∧
    (∀ c, c ∈ s.host.cut → c ∉ t.host.cut → s.regs.claimed = true ∧ c.lines ⊆ s.regs.hostConfig.lines)

/-- The commands each line of the assembler stands for, as the decoder reads its headers and payloads: `init` its
operands, with the width 8 where none is given and `PWR_EN` where `pwr` is; `setbit`, `shift`, `clrdata`, `store`, `clear`
and `release` their command; `load` LOAD_FRAME of the frame; the raw form its header and payload as written; `pushbit`,
`show`, `loadz` and `blank` their expansions, `loadz` with the width of the `init` before it (30_encoding R118, R119). -/
def Obligations.AssembledLinesDecode : Prop :=
  ∀ w : Nat,
    (∀ d st sh pwr width warn,
      DecodeTo (asmLine w (.init d st sh pwr width warn))
        [.init (decide (pwr ≠ none)) warn (width.getD 8) d st sh (pwr.getD 0)]) ∧
    (∀ v, DecodeTo (asmLine w (.setbit v)) [.setBit (if v then 0b01#2 else 0b00#2)]) ∧
    DecodeTo (asmLine w .shift) [.shift] ∧
    DecodeTo (asmLine w .clrdata) [.clearData] ∧
    (∀ f, f.length ≤ 255 → DecodeToLoad (asmLine w (.load f)) f) ∧
    DecodeTo (asmLine w .store) [.store] ∧
    DecodeTo (asmLine w .clear) [.clear] ∧
    DecodeTo (asmLine w .release) [.release] ∧
    (∀ h p, asmLine w (.raw h p) = [(h, p)]) ∧
    (∀ v, DecodeTo (asmLine w (.pushbit v)) [.setBit (if v then 0b01#2 else 0b00#2), .shift, .clearData]) ∧
    (∀ f, f.length ≤ 255 → ∃ load store, asmLine w (.showFrame f) = [load, store] ∧ DecodeToLoad [load] f ∧
      DecodeTo [store] [.store]) ∧
    (w ≤ 255 → DecodeToLoad (asmLine w .loadz) (List.replicate w false)) ∧
    DecodeTo (asmLine w .blank) [.clear, .store] ∧
    (∀ (n : BitVec 8) d st sh pwr warn ls,
      assemble w (.init d st sh pwr (some n) warn :: ls) =
        asmLine w (.init d st sh pwr (some n) warn) ++ assemble n.toNat ls ∧
      assemble w (.init d st sh pwr none warn :: ls) =
        asmLine w (.init d st sh pwr none warn) ++ assemble 8 ls) ∧
    ∀ l ls, (∀ d st sh pwr width warn, l ≠ .init d st sh pwr width warn) →
      assemble w (l :: ls) = asmLine w l ++ assemble w ls
end

