-- ==== Sys2Proof/Laws/Decode.lean ====
section
/-! SUPPORT. The bits of an encoded header, and the fields read back from it. -/

namespace Sys2Proof

/-- Bit `i` of a header is a bit of the field that holds it (30_encoding R101). -/
theorem headerWord_getLsbD (pw sh st d : LineId) (w : BitVec 8) (wn pe : Bool) (b : BitVec 2) (op : BitVec 4)
    (i : Nat) :
    (headerWord pw sh st d w wn pe b op).getLsbD i =
      if i < 4 then op.getLsbD i
      else if i < 6 then b.getLsbD (i - 4)
      else if i < 7 then pe
      else if i < 8 then wn
      else if i < 16 then w.getLsbD (i - 8)
      else if i < 24 then d.getLsbD (i - 16)
      else if i < 32 then st.getLsbD (i - 24)
      else if i < 40 then sh.getLsbD (i - 32)
      else if i < 48 then pw.getLsbD (i - 40)
      else false := by
  unfold headerWord
  rw [BitVec.getLsbD_cast, BitVec.getLsbD_append, BitVec.getLsbD_append, BitVec.getLsbD_append,
    BitVec.getLsbD_append, BitVec.getLsbD_append, BitVec.getLsbD_append, BitVec.getLsbD_append,
    BitVec.getLsbD_append, BitVec.getLsbD_append]
  simp only [BitVec.getLsbD_ofBool, BitVec.getLsbD_zero, Nat.sub_sub, Nat.reduceAdd]
  by_cases h1 : i < 4
  · rw [if_pos h1, if_pos h1]
  rw [if_neg h1, if_neg h1]
  by_cases h2 : i < 6
  · rw [if_pos (by omega), if_pos h2]
  rw [if_neg (by omega), if_neg h2]
  by_cases h3 : i < 7
  · rw [if_pos (by omega), if_pos h3]; simp; omega
  rw [if_neg (by omega), if_neg h3]
  by_cases h4 : i < 8
  · rw [if_pos (by omega), if_pos h4]; simp; omega
  rw [if_neg (by omega), if_neg h4]
  by_cases h5 : i < 16
  · rw [if_pos (by omega), if_pos h5]
  rw [if_neg (by omega), if_neg h5]
  by_cases h6 : i < 24
  · rw [if_pos (by omega), if_pos h6]
  rw [if_neg (by omega), if_neg h6]
  by_cases h7 : i < 32
  · rw [if_pos (by omega), if_pos h7]
  rw [if_neg (by omega), if_neg h7]
  by_cases h8 : i < 40
  · rw [if_pos (by omega), if_pos h8]
  rw [if_neg (by omega), if_neg h8]
  by_cases h9 : i < 48
  · rw [if_pos (by omega), if_pos h9]
  rw [if_neg (by omega), if_neg h9]

section fields
variable (pw sh st d : LineId) (w : BitVec 8) (wn pe : Bool) (b : BitVec 2) (op : BitVec 4)

@[simp] theorem opOf_headerWord : opOf (headerWord pw sh st d w wn pe b op) = op := by
  apply BitVec.eq_of_getLsbD_eq
  intro i hi
  rw [opOf, BitVec.getLsbD_extractLsb', headerWord_getLsbD]
  interval_cases i <;> simp

@[simp] theorem bsymOf_headerWord : bsymOf (headerWord pw sh st d w wn pe b op) = b := by
  apply BitVec.eq_of_getLsbD_eq
  intro i hi
  rw [bsymOf, BitVec.getLsbD_extractLsb', headerWord_getLsbD]
  interval_cases i <;> simp

@[simp] theorem countOf_headerWord : countOf (headerWord pw sh st d w wn pe b op) = w := by
  apply BitVec.eq_of_getLsbD_eq
  intro i hi
  rw [countOf, BitVec.getLsbD_extractLsb', headerWord_getLsbD]
  interval_cases i <;> simp

@[simp] theorem dataLineOf_headerWord : dataLineOf (headerWord pw sh st d w wn pe b op) = d := by
  apply BitVec.eq_of_getLsbD_eq
  intro i hi
  rw [dataLineOf, BitVec.getLsbD_extractLsb', headerWord_getLsbD]
  interval_cases i <;> simp

@[simp] theorem stcpLineOf_headerWord : stcpLineOf (headerWord pw sh st d w wn pe b op) = st := by
  apply BitVec.eq_of_getLsbD_eq
  intro i hi
  rw [stcpLineOf, BitVec.getLsbD_extractLsb', headerWord_getLsbD]
  interval_cases i <;> simp

@[simp] theorem shcpLineOf_headerWord : shcpLineOf (headerWord pw sh st d w wn pe b op) = sh := by
  apply BitVec.eq_of_getLsbD_eq
  intro i hi
  rw [shcpLineOf, BitVec.getLsbD_extractLsb', headerWord_getLsbD]
  interval_cases i <;> simp

@[simp] theorem pwrLineOf_headerWord : pwrLineOf (headerWord pw sh st d w wn pe b op) = pw := by
  apply BitVec.eq_of_getLsbD_eq
  intro i hi
  rw [pwrLineOf, BitVec.getLsbD_extractLsb', headerWord_getLsbD]
  interval_cases i <;> simp

@[simp] theorem pwrEnOf_headerWord : pwrEnOf (headerWord pw sh st d w wn pe b op) = pe := by
  rw [pwrEnOf, headerWord_getLsbD]; simp

@[simp] theorem warnOf_headerWord : warnOf (headerWord pw sh st d w wn pe b op) = wn := by
  rw [warnOf, headerWord_getLsbD]; simp

end fields

end Sys2Proof
end

