-- ==== Sys2Proof/Laws/State.lean ====
section
/-! SUPPORT. One lemma per field per named update of the state, so that no later proof unfolds an update. -/

namespace Sys2Proof.Machine

@[simp] theorem tick_life (r : Regs) :
    (r.tick).life = r.life := rfl
@[simp] theorem tick_busy (r : Regs) :
    (r.tick).busy = r.busy := rfl
@[simp] theorem tick_claimed (r : Regs) :
    (r.tick).claimed = r.claimed := rfl
@[simp] theorem tick_lastStatus (r : Regs) :
    (r.tick).lastStatus = r.lastStatus := rfl
@[simp] theorem tick_cfgDataLine (r : Regs) :
    (r.tick).cfgDataLine = r.cfgDataLine := rfl
@[simp] theorem tick_cfgStcpLine (r : Regs) :
    (r.tick).cfgStcpLine = r.cfgStcpLine := rfl
@[simp] theorem tick_cfgShcpLine (r : Regs) :
    (r.tick).cfgShcpLine = r.cfgShcpLine := rfl
@[simp] theorem tick_cfgPwrLine (r : Regs) :
    (r.tick).cfgPwrLine = r.cfgPwrLine := rfl
@[simp] theorem tick_cfgPwrEn (r : Regs) :
    (r.tick).cfgPwrEn = r.cfgPwrEn := rfl
@[simp] theorem tick_cfgWidth (r : Regs) :
    (r.tick).cfgWidth = r.cfgWidth := rfl
@[simp] theorem tick_cfgWarn (r : Regs) :
    (r.tick).cfgWarn = r.cfgWarn := rfl
@[simp] theorem tick_curOp (r : Regs) :
    (r.tick).curOp = r.curOp := rfl
@[simp] theorem tick_fbuf (r : Regs) :
    (r.tick).fbuf = r.fbuf := rfl
@[simp] theorem tick_curBit (r : Regs) :
    (r.tick).curBit = r.curBit := rfl
@[simp] theorem tick_seq (r : Regs) :
    (r.tick).seq = r.seq := rfl
@[simp] theorem tick_k (r : Regs) :
    (r.tick).k = r.k := rfl
@[simp] theorem tick_relErr (r : Regs) :
    (r.tick).relErr = r.relErr := rfl
@[simp] theorem tick_lvlData (r : Regs) :
    (r.tick).lvlData = r.lvlData := rfl
@[simp] theorem tick_lvlShcp (r : Regs) :
    (r.tick).lvlShcp = r.lvlShcp := rfl
@[simp] theorem tick_lvlStcp (r : Regs) :
    (r.tick).lvlStcp = r.lvlStcp := rfl
@[simp] theorem tick_lvlPwr (r : Regs) :
    (r.tick).lvlPwr = r.lvlPwr := rfl
@[simp] theorem tick_doneValid (r : Regs) :
    (r.tick).doneValid = false := rfl
@[simp] theorem tick_doneStatus (r : Regs) :
    (r.tick).doneStatus = r.doneStatus := rfl

@[simp] theorem conclude_life (c : Status) (r : Regs) :
    (r.conclude c).life = r.life := rfl
@[simp] theorem conclude_busy (c : Status) (r : Regs) :
    (r.conclude c).busy = r.busy := rfl
@[simp] theorem conclude_claimed (c : Status) (r : Regs) :
    (r.conclude c).claimed = r.claimed := rfl
@[simp] theorem conclude_lastStatus (c : Status) (r : Regs) :
    (r.conclude c).lastStatus = c := rfl
@[simp] theorem conclude_cfgDataLine (c : Status) (r : Regs) :
    (r.conclude c).cfgDataLine = r.cfgDataLine := rfl
@[simp] theorem conclude_cfgStcpLine (c : Status) (r : Regs) :
    (r.conclude c).cfgStcpLine = r.cfgStcpLine := rfl
@[simp] theorem conclude_cfgShcpLine (c : Status) (r : Regs) :
    (r.conclude c).cfgShcpLine = r.cfgShcpLine := rfl
@[simp] theorem conclude_cfgPwrLine (c : Status) (r : Regs) :
    (r.conclude c).cfgPwrLine = r.cfgPwrLine := rfl
@[simp] theorem conclude_cfgPwrEn (c : Status) (r : Regs) :
    (r.conclude c).cfgPwrEn = r.cfgPwrEn := rfl
@[simp] theorem conclude_cfgWidth (c : Status) (r : Regs) :
    (r.conclude c).cfgWidth = r.cfgWidth := rfl
@[simp] theorem conclude_cfgWarn (c : Status) (r : Regs) :
    (r.conclude c).cfgWarn = r.cfgWarn := rfl
@[simp] theorem conclude_curOp (c : Status) (r : Regs) :
    (r.conclude c).curOp = r.curOp := rfl
@[simp] theorem conclude_fbuf (c : Status) (r : Regs) :
    (r.conclude c).fbuf = r.fbuf := rfl
@[simp] theorem conclude_curBit (c : Status) (r : Regs) :
    (r.conclude c).curBit = r.curBit := rfl
@[simp] theorem conclude_seq (c : Status) (r : Regs) :
    (r.conclude c).seq = r.seq := rfl
@[simp] theorem conclude_k (c : Status) (r : Regs) :
    (r.conclude c).k = r.k := rfl
@[simp] theorem conclude_relErr (c : Status) (r : Regs) :
    (r.conclude c).relErr = r.relErr := rfl
@[simp] theorem conclude_lvlData (c : Status) (r : Regs) :
    (r.conclude c).lvlData = r.lvlData := rfl
@[simp] theorem conclude_lvlShcp (c : Status) (r : Regs) :
    (r.conclude c).lvlShcp = r.lvlShcp := rfl
@[simp] theorem conclude_lvlStcp (c : Status) (r : Regs) :
    (r.conclude c).lvlStcp = r.lvlStcp := rfl
@[simp] theorem conclude_lvlPwr (c : Status) (r : Regs) :
    (r.conclude c).lvlPwr = r.lvlPwr := rfl
@[simp] theorem conclude_doneValid (c : Status) (r : Regs) :
    (r.conclude c).doneValid = true := rfl
@[simp] theorem conclude_doneStatus (c : Status) (r : Regs) :
    (r.conclude c).doneStatus = c := rfl

/-- The registers with another `K`. -/
def Regs.atK (n : Nat) (r : Regs) : Regs := { r with k := n }

@[simp] theorem atK_life (n : Nat) (r : Regs) :
    (r.atK n).life = r.life := rfl
@[simp] theorem atK_busy (n : Nat) (r : Regs) :
    (r.atK n).busy = r.busy := rfl
@[simp] theorem atK_claimed (n : Nat) (r : Regs) :
    (r.atK n).claimed = r.claimed := rfl
@[simp] theorem atK_lastStatus (n : Nat) (r : Regs) :
    (r.atK n).lastStatus = r.lastStatus := rfl
@[simp] theorem atK_cfgDataLine (n : Nat) (r : Regs) :
    (r.atK n).cfgDataLine = r.cfgDataLine := rfl
@[simp] theorem atK_cfgStcpLine (n : Nat) (r : Regs) :
    (r.atK n).cfgStcpLine = r.cfgStcpLine := rfl
@[simp] theorem atK_cfgShcpLine (n : Nat) (r : Regs) :
    (r.atK n).cfgShcpLine = r.cfgShcpLine := rfl
@[simp] theorem atK_cfgPwrLine (n : Nat) (r : Regs) :
    (r.atK n).cfgPwrLine = r.cfgPwrLine := rfl
@[simp] theorem atK_cfgPwrEn (n : Nat) (r : Regs) :
    (r.atK n).cfgPwrEn = r.cfgPwrEn := rfl
@[simp] theorem atK_cfgWidth (n : Nat) (r : Regs) :
    (r.atK n).cfgWidth = r.cfgWidth := rfl
@[simp] theorem atK_cfgWarn (n : Nat) (r : Regs) :
    (r.atK n).cfgWarn = r.cfgWarn := rfl
@[simp] theorem atK_curOp (n : Nat) (r : Regs) :
    (r.atK n).curOp = r.curOp := rfl
@[simp] theorem atK_fbuf (n : Nat) (r : Regs) :
    (r.atK n).fbuf = r.fbuf := rfl
@[simp] theorem atK_curBit (n : Nat) (r : Regs) :
    (r.atK n).curBit = r.curBit := rfl
@[simp] theorem atK_seq (n : Nat) (r : Regs) :
    (r.atK n).seq = r.seq := rfl
@[simp] theorem atK_k (n : Nat) (r : Regs) :
    (r.atK n).k = n := rfl
@[simp] theorem atK_relErr (n : Nat) (r : Regs) :
    (r.atK n).relErr = r.relErr := rfl
@[simp] theorem atK_lvlData (n : Nat) (r : Regs) :
    (r.atK n).lvlData = r.lvlData := rfl
@[simp] theorem atK_lvlShcp (n : Nat) (r : Regs) :
    (r.atK n).lvlShcp = r.lvlShcp := rfl
@[simp] theorem atK_lvlStcp (n : Nat) (r : Regs) :
    (r.atK n).lvlStcp = r.lvlStcp := rfl
@[simp] theorem atK_lvlPwr (n : Nat) (r : Regs) :
    (r.atK n).lvlPwr = r.lvlPwr := rfl
@[simp] theorem atK_doneValid (n : Nat) (r : Regs) :
    (r.atK n).doneValid = r.doneValid := rfl
@[simp] theorem atK_doneStatus (n : Nat) (r : Regs) :
    (r.atK n).doneStatus = r.doneStatus := rfl

@[simp] theorem setLvl_life (role : Role) (l : Level) (r : Regs) :
    (r.setLvl role l).life = r.life := by cases role <;> rfl
@[simp] theorem setLvl_busy (role : Role) (l : Level) (r : Regs) :
    (r.setLvl role l).busy = r.busy := by cases role <;> rfl
@[simp] theorem setLvl_claimed (role : Role) (l : Level) (r : Regs) :
    (r.setLvl role l).claimed = r.claimed := by cases role <;> rfl
@[simp] theorem setLvl_lastStatus (role : Role) (l : Level) (r : Regs) :
    (r.setLvl role l).lastStatus = r.lastStatus := by cases role <;> rfl
@[simp] theorem setLvl_cfgDataLine (role : Role) (l : Level) (r : Regs) :
    (r.setLvl role l).cfgDataLine = r.cfgDataLine := by cases role <;> rfl
@[simp] theorem setLvl_cfgStcpLine (role : Role) (l : Level) (r : Regs) :
    (r.setLvl role l).cfgStcpLine = r.cfgStcpLine := by cases role <;> rfl
@[simp] theorem setLvl_cfgShcpLine (role : Role) (l : Level) (r : Regs) :
    (r.setLvl role l).cfgShcpLine = r.cfgShcpLine := by cases role <;> rfl
@[simp] theorem setLvl_cfgPwrLine (role : Role) (l : Level) (r : Regs) :
    (r.setLvl role l).cfgPwrLine = r.cfgPwrLine := by cases role <;> rfl
@[simp] theorem setLvl_cfgPwrEn (role : Role) (l : Level) (r : Regs) :
    (r.setLvl role l).cfgPwrEn = r.cfgPwrEn := by cases role <;> rfl
@[simp] theorem setLvl_cfgWidth (role : Role) (l : Level) (r : Regs) :
    (r.setLvl role l).cfgWidth = r.cfgWidth := by cases role <;> rfl
@[simp] theorem setLvl_cfgWarn (role : Role) (l : Level) (r : Regs) :
    (r.setLvl role l).cfgWarn = r.cfgWarn := by cases role <;> rfl
@[simp] theorem setLvl_curOp (role : Role) (l : Level) (r : Regs) :
    (r.setLvl role l).curOp = r.curOp := by cases role <;> rfl
@[simp] theorem setLvl_fbuf (role : Role) (l : Level) (r : Regs) :
    (r.setLvl role l).fbuf = r.fbuf := by cases role <;> rfl
@[simp] theorem setLvl_curBit (role : Role) (l : Level) (r : Regs) :
    (r.setLvl role l).curBit = r.curBit := by cases role <;> rfl
@[simp] theorem setLvl_seq (role : Role) (l : Level) (r : Regs) :
    (r.setLvl role l).seq = r.seq := by cases role <;> rfl
@[simp] theorem setLvl_k (role : Role) (l : Level) (r : Regs) :
    (r.setLvl role l).k = r.k := by cases role <;> rfl
@[simp] theorem setLvl_relErr (role : Role) (l : Level) (r : Regs) :
    (r.setLvl role l).relErr = r.relErr := by cases role <;> rfl
@[simp] theorem setLvl_doneValid (role : Role) (l : Level) (r : Regs) :
    (r.setLvl role l).doneValid = r.doneValid := by cases role <;> rfl
@[simp] theorem setLvl_doneStatus (role : Role) (l : Level) (r : Regs) :
    (r.setLvl role l).doneStatus = r.doneStatus := by cases role <;> rfl

@[simp] theorem shadow_life (t : Txn) (a : Answer) (r : Regs) :
    (r.shadow t a).life = r.life := by
  cases t <;> cases a <;> first | rfl | exact setLvl_life _ _ _
@[simp] theorem shadow_busy (t : Txn) (a : Answer) (r : Regs) :
    (r.shadow t a).busy = r.busy := by
  cases t <;> cases a <;> first | rfl | exact setLvl_busy _ _ _
@[simp] theorem shadow_claimed (t : Txn) (a : Answer) (r : Regs) :
    (r.shadow t a).claimed = r.claimed := by
  cases t <;> cases a <;> first | rfl | exact setLvl_claimed _ _ _
@[simp] theorem shadow_lastStatus (t : Txn) (a : Answer) (r : Regs) :
    (r.shadow t a).lastStatus = r.lastStatus := by
  cases t <;> cases a <;> first | rfl | exact setLvl_lastStatus _ _ _
@[simp] theorem shadow_cfgDataLine (t : Txn) (a : Answer) (r : Regs) :
    (r.shadow t a).cfgDataLine = r.cfgDataLine := by
  cases t <;> cases a <;> first | rfl | exact setLvl_cfgDataLine _ _ _
@[simp] theorem shadow_cfgStcpLine (t : Txn) (a : Answer) (r : Regs) :
    (r.shadow t a).cfgStcpLine = r.cfgStcpLine := by
  cases t <;> cases a <;> first | rfl | exact setLvl_cfgStcpLine _ _ _
@[simp] theorem shadow_cfgShcpLine (t : Txn) (a : Answer) (r : Regs) :
    (r.shadow t a).cfgShcpLine = r.cfgShcpLine := by
  cases t <;> cases a <;> first | rfl | exact setLvl_cfgShcpLine _ _ _
@[simp] theorem shadow_cfgPwrLine (t : Txn) (a : Answer) (r : Regs) :
    (r.shadow t a).cfgPwrLine = r.cfgPwrLine := by
  cases t <;> cases a <;> first | rfl | exact setLvl_cfgPwrLine _ _ _
@[simp] theorem shadow_cfgPwrEn (t : Txn) (a : Answer) (r : Regs) :
    (r.shadow t a).cfgPwrEn = r.cfgPwrEn := by
  cases t <;> cases a <;> first | rfl | exact setLvl_cfgPwrEn _ _ _
@[simp] theorem shadow_cfgWidth (t : Txn) (a : Answer) (r : Regs) :
    (r.shadow t a).cfgWidth = r.cfgWidth := by
  cases t <;> cases a <;> first | rfl | exact setLvl_cfgWidth _ _ _
@[simp] theorem shadow_cfgWarn (t : Txn) (a : Answer) (r : Regs) :
    (r.shadow t a).cfgWarn = r.cfgWarn := by
  cases t <;> cases a <;> first | rfl | exact setLvl_cfgWarn _ _ _
@[simp] theorem shadow_curOp (t : Txn) (a : Answer) (r : Regs) :
    (r.shadow t a).curOp = r.curOp := by
  cases t <;> cases a <;> first | rfl | exact setLvl_curOp _ _ _
@[simp] theorem shadow_fbuf (t : Txn) (a : Answer) (r : Regs) :
    (r.shadow t a).fbuf = r.fbuf := by
  cases t <;> cases a <;> first | rfl | exact setLvl_fbuf _ _ _
@[simp] theorem shadow_curBit (t : Txn) (a : Answer) (r : Regs) :
    (r.shadow t a).curBit = r.curBit := by
  cases t <;> cases a <;> first | rfl | exact setLvl_curBit _ _ _
@[simp] theorem shadow_seq (t : Txn) (a : Answer) (r : Regs) :
    (r.shadow t a).seq = r.seq := by
  cases t <;> cases a <;> first | rfl | exact setLvl_seq _ _ _
@[simp] theorem shadow_k (t : Txn) (a : Answer) (r : Regs) :
    (r.shadow t a).k = r.k := by
  cases t <;> cases a <;> first | rfl | exact setLvl_k _ _ _
@[simp] theorem shadow_relErr (t : Txn) (a : Answer) (r : Regs) :
    (r.shadow t a).relErr = r.relErr := by
  cases t <;> cases a <;> first | rfl | exact setLvl_relErr _ _ _
@[simp] theorem shadow_doneValid (t : Txn) (a : Answer) (r : Regs) :
    (r.shadow t a).doneValid = r.doneValid := by
  cases t <;> cases a <;> first | rfl | exact setLvl_doneValid _ _ _
@[simp] theorem shadow_doneStatus (t : Txn) (a : Answer) (r : Regs) :
    (r.shadow t a).doneStatus = r.doneStatus := by
  cases t <;> cases a <;> first | rfl | exact setLvl_doneStatus _ _ _

@[simp] theorem popRsp_regs (s : State) :
    (s.popRsp).regs = s.regs := rfl
@[simp] theorem popRsp_dev (s : State) :
    (s.popRsp).dev = s.dev := rfl
@[simp] theorem popRsp_port (s : State) :
    (s.popRsp).port = s.port := rfl
@[simp] theorem popRsp_draws (s : State) :
    (s.popRsp).draws = s.draws.tail := rfl
@[simp] theorem popRsp_cycle (s : State) :
    (s.popRsp).cycle = s.cycle := rfl
@[simp] theorem popRsp_trace (s : State) :
    (s.popRsp).trace = s.trace := rfl
@[simp] theorem popRsp_host (s : State) :
    (s.popRsp).host = s.host := rfl
@[simp] theorem popRsp_params (s : State) :
    (s.popRsp).params = s.params := rfl

@[simp] theorem quietEdge_regs (s : State) :
    (quietEdge s).regs = s.regs.tick := rfl
@[simp] theorem quietEdge_dev (s : State) :
    (quietEdge s).dev = s.dev := rfl
@[simp] theorem quietEdge_port (s : State) :
    (quietEdge s).port = s.port := rfl
@[simp] theorem quietEdge_draws (s : State) :
    (quietEdge s).draws = s.draws := rfl
@[simp] theorem quietEdge_cycle (s : State) :
    (quietEdge s).cycle = s.cycle + 1 := rfl
@[simp] theorem quietEdge_trace (s : State) :
    (quietEdge s).trace = s.trace := rfl
@[simp] theorem quietEdge_host (s : State) :
    (quietEdge s).host = s.host := rfl
@[simp] theorem quietEdge_params (s : State) :
    (quietEdge s).params = s.params := rfl

@[simp] theorem acceptEdge_regs (op : BitVec 4) (c : Status) (p : Regs → Regs) (s : State) :
    (acceptEdge op c p s).regs = s.regs.tick.accept op c p := rfl
@[simp] theorem acceptEdge_dev (op : BitVec 4) (c : Status) (p : Regs → Regs) (s : State) :
    (acceptEdge op c p s).dev = s.dev := rfl
@[simp] theorem acceptEdge_port (op : BitVec 4) (c : Status) (p : Regs → Regs) (s : State) :
    (acceptEdge op c p s).port = { s.port with cmdValid := false } := rfl
@[simp] theorem acceptEdge_draws (op : BitVec 4) (c : Status) (p : Regs → Regs) (s : State) :
    (acceptEdge op c p s).draws = s.draws := rfl
@[simp] theorem acceptEdge_cycle (op : BitVec 4) (c : Status) (p : Regs → Regs) (s : State) :
    (acceptEdge op c p s).cycle = s.cycle + 1 := rfl
@[simp] theorem acceptEdge_trace (op : BitVec 4) (c : Status) (p : Regs → Regs) (s : State) :
    (acceptEdge op c p s).trace = s.trace := rfl
@[simp] theorem acceptEdge_host (op : BitVec 4) (c : Status) (p : Regs → Regs) (s : State) :
    (acceptEdge op c p s).host = s.host := rfl
@[simp] theorem acceptEdge_params (op : BitVec 4) (c : Status) (p : Regs → Regs) (s : State) :
    (acceptEdge op c p s).params = s.params := rfl

@[simp] theorem resetEdge_regs (s : State) :
    (resetEdge s).regs = Regs.reset s.params.wmax := rfl
@[simp] theorem resetEdge_dev (s : State) :
    (resetEdge s).dev = if s.regs.busy then s.dev.floatLines s.params.pwrQ s.regs.cfgPwrEn else s.dev := rfl
@[simp] theorem resetEdge_port (s : State) :
    (resetEdge s).port = { s.port with rstLow := s.port.rstLow - 1 } := rfl
@[simp] theorem resetEdge_draws (s : State) :
    (resetEdge s).draws = s.draws := rfl
@[simp] theorem resetEdge_cycle (s : State) :
    (resetEdge s).cycle = s.cycle + 1 := rfl
@[simp] theorem resetEdge_trace (s : State) :
    (resetEdge s).trace = [] := rfl
@[simp] theorem resetEdge_host (s : State) :
    (resetEdge s).host = hostReset s.regs s.port s.host := rfl
@[simp] theorem resetEdge_params (s : State) :
    (resetEdge s).params = s.params := rfl

@[simp] theorem refusedWith_regs (c : Status) (s : State) :
    (refusedWith c s).regs = { s.regs with relErr := false, lastStatus := c, doneStatus := c, doneValid := true } := rfl
@[simp] theorem refusedWith_dev (c : Status) (s : State) :
    (refusedWith c s).dev = s.dev := rfl
@[simp] theorem refusedWith_port (c : Status) (s : State) :
    (refusedWith c s).port = { s.port with cmdValid := false } := rfl
@[simp] theorem refusedWith_draws (c : Status) (s : State) :
    (refusedWith c s).draws = s.draws := rfl
@[simp] theorem refusedWith_cycle (c : Status) (s : State) :
    (refusedWith c s).cycle = s.cycle + 1 := rfl
@[simp] theorem refusedWith_trace (c : Status) (s : State) :
    (refusedWith c s).trace = s.trace := rfl
@[simp] theorem refusedWith_host (c : Status) (s : State) :
    (refusedWith c s).host = s.host := rfl
@[simp] theorem refusedWith_params (c : Status) (s : State) :
    (refusedWith c s).params = s.params := rfl

@[simp] theorem idleEdge_regs (s : State) :
    (idleEdge s).regs = s.regs.tick := rfl
@[simp] theorem idleEdge_dev (s : State) :
    (idleEdge s).dev = s.dev := rfl
@[simp] theorem idleEdge_port (s : State) :
    (idleEdge s).port = presentCmd (hostAct s.params s.regs.claimed (hostReceive s.regs s.host)).2 s.port := rfl
@[simp] theorem idleEdge_draws (s : State) :
    (idleEdge s).draws = s.draws := rfl
@[simp] theorem idleEdge_cycle (s : State) :
    (idleEdge s).cycle = s.cycle + 1 := rfl
@[simp] theorem idleEdge_trace (s : State) :
    (idleEdge s).trace = s.trace := rfl
@[simp] theorem idleEdge_host (s : State) :
    (idleEdge s).host = (hostAct s.params s.regs.claimed (hostReceive s.regs s.host)).1 := rfl
@[simp] theorem idleEdge_params (s : State) :
    (idleEdge s).params = s.params := rfl

end Sys2Proof.Machine
end

