-- ==== Sys2Proof/Laws/Device.lean ====
section
/-! SUPPORT. What the device model does, said once: stage counts, the effect of a driven line, the effect of the
transaction lists the commands are made of. -/

namespace Sys2Proof.Machine

@[simp] theorem allCells_length (c : Cell) (l : List Cell) : (allCells c l).length = l.length := by
  simp [allCells]

theorem allCells_eq_replicate (c : Cell) (l : List Cell) : allCells c l = List.replicate l.length c := by
  simp [allCells]

/-! ### Stage counts never change (20_memory R88) -/

@[simp] theorem setLevel_sr (d : Device) (r : Role) (c : Cell) : (d.setLevel r c).sr = d.sr := by
  cases r <;> rfl

@[simp] theorem setLevel_q (d : Device) (r : Role) (c : Cell) : (d.setLevel r c).q = d.q := by
  cases r <;> rfl

theorem drive_sr_length (pq : PwrQEffect) (e : Bool) (r : Role) (c : Cell) (d : Device) :
    (d.drive pq e r c).sr.length = d.sr.length := by
  cases r <;> simp only [Device.drive, Device.event, setLevel_sr]
  · unfold Device.shiftEvent
    split_ifs <;> simp
  · unfold Device.storeEvent
    split_ifs <;> simp
  · unfold Device.powerEvent Device.powerQ
    cases pq <;> cases e <;> cases c <;> simp <;> split_ifs <;> simp

theorem drive_q_length (pq : PwrQEffect) (e : Bool) (r : Role) (c : Cell) (d : Device)
    (h : d.sr.length = d.q.length) : (d.drive pq e r c).q.length = d.q.length := by
  cases r <;> simp only [Device.drive, Device.event, setLevel_q]
  · unfold Device.shiftEvent
    split_ifs <;> simp
  · unfold Device.storeEvent
    split_ifs <;> simp [h]
  · unfold Device.powerEvent Device.powerQ
    cases pq <;> cases e <;> cases c <;> simp <;> split_ifs <;> simp

theorem floatLines_lengths (pq : PwrQEffect) (e : Bool) (d : Device) (h : d.sr.length = d.q.length) :
    (d.floatLines pq e).sr.length = d.sr.length ∧ (d.floatLines pq e).q.length = d.q.length := by
  have hs := fun r d => drive_sr_length pq e r .x d
  have h1 := drive_q_length pq e .data .x d h
  have h2 := drive_q_length pq e .shcp .x _ (by rw [hs, h1, h] : (d.drive pq e .data .x).sr.length = _)
  have h3 := drive_q_length pq e .stcp .x _
    (by rw [hs, hs, h2, h1, h] : ((d.drive pq e .data .x).drive pq e .shcp .x).sr.length = _)
  have h4 := drive_q_length pq e .pwr .x _
    (by rw [hs, hs, hs, h3, h2, h1, h] :
      (((d.drive pq e .data .x).drive pq e .shcp .x).drive pq e .stcp .x).sr.length = _)
  exact ⟨by simp only [Device.floatLines, hs], by rw [Device.floatLines, h4, h3, h2, h1]⟩

/-- A transaction keeps the numbers of stages. -/
theorem transact_lengths (pq : PwrQEffect) (e : Bool) (t : Txn) (a : Answer) (d : Device)
    (h : d.sr.length = d.q.length) :
    (d.transact pq e t a).sr.length = d.sr.length ∧ (d.transact pq e t a).q.length = d.q.length := by
  rcases t with r | ⟨r, v⟩ | _ <;> cases a <;>
    first
      | exact floatLines_lengths pq e d h
      | exact ⟨drive_sr_length pq e r _ d, drive_q_length pq e r _ d h⟩

/-- With every line floating the device shows nothing known (20_memory R93, R94). -/
theorem floatLines_eq (pq : PwrQEffect) (e : Bool) (d : Device) :
    d.floatLines pq e =
      { sr := allCells .x d.sr, q := allCells .x d.q, pData := .x, pShcp := .x, pStcp := .x, pPwr := .x } := by
  rcases d with ⟨sr, q, a, b, c, f⟩
  cases pq <;> cases e <;> cases b <;> cases c <;> cases f <;>
    simp [Device.floatLines, Device.drive, Device.event, Device.setLevel, Device.level, Device.shiftEvent,
      Device.storeEvent, Device.powerEvent, Device.powerQ, allCells]

/-- A failed transaction leaves its line, and what the line can have changed, unknown (20_memory R89 to R94). -/
theorem transact_err (pq : PwrQEffect) (e : Bool) (t : Txn) (d : Device) :
    d.transact pq e t .err = d.afterErr pq e t := by
  rcases t with r | ⟨r, v⟩ | _
  case releaseAll => simp [Device.transact, floatLines_eq, Device.afterErr, allCells_eq_replicate]
  all_goals
    rcases d with ⟨sr, q, a, b, c, f⟩
    cases r <;> cases e <;> cases pq <;> cases f <;>
      simp [Device.transact, Device.drive, Device.event, Device.setLevel, Device.level, Device.shiftEvent,
        Device.storeEvent, Device.powerEvent, Device.powerQ, Device.afterErr, allCells_eq_replicate]

/-! ### Pulses and loads (20_memory R90, R91; 41_bit_protocol R144) -/

theorem transactAll_append (pq : PwrQEffect) (e : Bool) (ts us : List Txn) (d : Device) :
    Device.transactAll pq e (ts ++ us) d = Device.transactAll pq e us (Device.transactAll pq e ts d) := by
  induction ts generalizing d with
  | nil => rfl
  | cons t ts ih => simp [Device.transactAll, ih]

/-- One element of a load, from a low shift clock with the device powered: the bit is in stage 0, everything else
is as it was but for the data line, which is low. -/
theorem transactAll_elemSeq (pq : PwrQEffect) (e b : Bool) (d : Device) (hc : d.pShcp = .zero)
    (hp : e = true → d.pPwr = .one) :
    Device.transactAll pq e (elemSeq b) d =
      { d with sr := (Cell.ofBool b :: d.sr).dropLast, pData := .zero } := by
  rcases d with ⟨sr, q, a, s, c, f⟩
  subst hc
  cases e with
  | false =>
    cases b <;> simp [elemSeq, Device.transactAll, Device.transact, Device.drive, Device.event, Device.setLevel,
      Device.level, Device.shiftEvent, Cell.ofBool]
  | true =>
    obtain rfl : f = .one := hp rfl
    cases b <;> simp [elemSeq, Device.transactAll, Device.transact, Device.drive, Device.event, Device.setLevel,
      Device.level, Device.shiftEvent, Cell.ofBool]

/-- A whole load: the frame comes in at stage 0, first element first, and pushes the old contents out. -/
theorem transactAll_loadSeq (pq : PwrQEffect) (e : Bool) (f : List Bool) (d : Device) (hc : d.pShcp = .zero)
    (hp : e = true → d.pPwr = .one) (hne : f ≠ []) :
    Device.transactAll pq e (loadSeq f) d =
      { d with sr := ((cellsOf f).reverse ++ d.sr).take d.sr.length, pData := .zero } := by
  induction f generalizing d with
  | nil => exact absurd rfl hne
  | cons b f ih =>
    rw [loadSeq, transactAll_append, transactAll_elemSeq pq e b d hc hp]
    by_cases hf : f = []
    · subst hf
      simp [loadSeq, Device.transactAll, cellsOf, List.dropLast_eq_take]
    · rw [ih { d with sr := (Cell.ofBool b :: d.sr).dropLast, pData := .zero } hc hp hf]
      simp [cellsOf, List.dropLast_eq_take, List.take_append, List.take_take]

/-- A pulse of the shift clock from a low level with the device powered. -/
theorem transactAll_pulse_shcp (pq : PwrQEffect) (e : Bool) (d : Device) (hc : d.pShcp = .zero)
    (hp : e = true → d.pPwr = .one) :
    Device.transactAll pq e (pulse .shcp) d = { d with sr := (d.pData :: d.sr).dropLast } := by
  rcases d with ⟨sr, q, a, s, c, f⟩
  subst hc
  cases e with
  | false =>
    simp [pulse, Device.transactAll, Device.transact, Device.drive, Device.event, Device.setLevel, Device.level,
      Device.shiftEvent, Cell.ofBool]
  | true =>
    obtain rfl : f = .one := hp rfl
    simp [pulse, Device.transactAll, Device.transact, Device.drive, Device.event, Device.setLevel, Device.level,
      Device.shiftEvent, Cell.ofBool]

/-- A pulse of the store clock from a low level. -/
theorem transactAll_pulse_stcp (pq : PwrQEffect) (e : Bool) (d : Device) (hc : d.pStcp = .zero) :
    Device.transactAll pq e (pulse .stcp) d = { d with q := d.sr } := by
  rcases d with ⟨sr, q, a, s, c, f⟩
  subst hc
  simp [pulse, Device.transactAll, Device.transact, Device.drive, Device.event, Device.setLevel, Device.level,
    Device.storeEvent, Cell.ofBool]

/-! ### The shadows (20_memory R81) -/

theorem shadowAll_append (ts us : List Txn) (r : Regs) :
    Regs.shadowAll (ts ++ us) r = Regs.shadowAll us (Regs.shadowAll ts r) := by
  induction ts generalizing r with
  | nil => rfl
  | cons t ts ih => simp [Regs.shadowAll, ih]

/-- A load leaves the data line and the shift clock low. -/
theorem shadowAll_loadSeq (f : List Bool) (r : Regs) (hne : f ≠ []) :
    Regs.shadowAll (loadSeq f) r = { r with lvlData := .low, lvlShcp := .low } := by
  induction f generalizing r with
  | nil => exact absurd rfl hne
  | cons b f ih =>
    have h1 : Regs.shadowAll (elemSeq b) r = { r with lvlData := .low, lvlShcp := .low } := by
      cases b <;> rfl
    rw [loadSeq, shadowAll_append, h1]
    by_cases hf : f = []
    · subst hf; rfl
    · rw [ih _ hf]

@[simp] theorem loadSeq_length (f : List Bool) : (loadSeq f).length = 4 * f.length := by
  induction f with
  | nil => rfl
  | cons b f ih => simp [loadSeq, elemSeq, ih]; omega

@[simp] theorem zeros_length (w : Nat) : (zeros w).length = w := by simp [zeros]

end Sys2Proof.Machine
end

