-- ==== Sys2Proof/Laws/Ops.lean ====
section
/-! SUPPORT. What the shared operations of the command cycle do, said once: an answer, the edges of a command, the
acceptance of a command. -/

namespace Sys2Proof.Machine

/-! ### Answers -/

@[simp] theorem atK_atK (n m : Nat) (r : Regs) : (r.atK m).atK n = r.atK n := rfl

theorem atK_self {n : Nat} {r : Regs} (h : r.k = n) : r.atK n = r := by subst h; rfl

theorem tick_atK (n : Nat) (r : Regs) : (r.atK n).tick = r.tick.atK n := rfl

theorem tick_tick (r : Regs) : r.tick.tick = r.tick := rfl

theorem shadow_atK (r : Regs) (t : Txn) (a : Answer) (n : Nat) :
    (r.atK n).shadow t a = (r.shadow t a).atK n := by
  rcases t with role | ⟨role, v⟩ | _ <;> cases a <;> first | rfl | (cases role <;> rfl)

theorem shadow_tick (r : Regs) (t : Txn) (a : Answer) : r.tick.shadow t a = (r.shadow t a).tick := by
  rcases t with role | ⟨role, v⟩ | _ <;> cases a <;> first | rfl | (cases role <;> rfl)

theorem shadowAll_atK (ts : List Txn) (r : Regs) (n : Nat) :
    Regs.shadowAll ts (r.atK n) = (Regs.shadowAll ts r).atK n := by
  induction ts generalizing r with
  | nil => rfl
  | cons t ts ih => simp only [Regs.shadowAll, shadow_atK, ih]

/-- OK with a transaction to follow: `K` advances. -/
theorem answered_ok_next {r : Regs} {t : Txn} (h : r.k + 1 < r.seq.length) :
    r.answered t .ok = (r.shadow t .ok).atK (r.k + 1) := by
  have h' : (r.shadow t .ok).k + 1 < (r.shadow t .ok).seq.length := by simpa using h
  show (if _ then Regs.atK ((r.shadow t .ok).k + 1) (r.shadow t .ok) else _) = _
  rw [if_pos h', shadow_k]

/-- OK at the end of `SEQ`: the command responds. -/
theorem answered_ok_last {r : Regs} {t : Txn} (h : r.seq.length ≤ r.k + 1) :
    r.answered t .ok = (r.shadow t .ok).respond (if r.relErr then .backendIo else .ok) := by
  simp only [Regs.answered, shadow_k, shadow_seq, Nat.not_lt.mpr h, if_false, shadow_relErr]

/-- ERR ends the command, but for a RELEASE before its `ReleaseAll`. -/
theorem answered_err_abort {r : Regs} {t : Txn} (h : r.curOp = 8 → t = .releaseAll) :
    r.answered t .err = (r.shadow t .err).abort .backendIo := by
  have : ¬ (r.curOp = 8 ∧ t ≠ .releaseAll) := fun hc => hc.2 (h hc.1)
  simp only [Regs.answered, Regs.onError, shadow_curOp, this, if_false]

/-- ERR in the clear phase of RELEASE: on to the last transaction. -/
theorem answered_err_release {r : Regs} {t : Txn} (h : r.curOp = 8) (ht : t ≠ .releaseAll) :
    r.answered t .err = { r.shadow t .err with relErr := true, k := r.seq.length - 1 } := by
  simp [Regs.answered, Regs.onError, h, ht]

/-- What an answer leaves: the command goes on, or ends by `respond`, or ends by `abort`. -/
theorem answered_cases (r : Regs) (t : Txn) (a : Answer) :
    (a = .ok ∧ r.k + 1 < r.seq.length ∧ r.answered t a = (r.shadow t a).atK (r.k + 1)) ∨
    (a = .ok ∧ r.seq.length ≤ r.k + 1 ∧
      r.answered t a = (r.shadow t a).respond (if r.relErr then .backendIo else .ok)) ∨
    (a = .err ∧ r.curOp = 8 ∧ t ≠ .releaseAll ∧
      r.answered t a = { r.shadow t a with relErr := true, k := r.seq.length - 1 }) ∨
    (a = .err ∧ (r.curOp = 8 → t = .releaseAll) ∧ r.answered t a = (r.shadow t a).abort .backendIo) := by
  cases a with
  | ok =>
    by_cases h : r.k + 1 < r.seq.length
    · exact .inl ⟨rfl, h, answered_ok_next h⟩
    · exact .inr (.inl ⟨rfl, Nat.not_lt.mp h, answered_ok_last (Nat.not_lt.mp h)⟩)
  | err =>
    by_cases h : r.curOp = 8 ∧ t ≠ .releaseAll
    · exact .inr (.inr (.inl ⟨rfl, h.1, h.2, answered_err_release h.1 h.2⟩))
    · have h' : r.curOp = 8 → t = .releaseAll := fun h8 => by_contra fun hn => h ⟨h8, hn⟩
      exact .inr (.inr (.inr ⟨rfl, h', answered_err_abort h'⟩))

/-- The end of a command writes these registers only. -/
theorem respond_eq (c : Status) (r : Regs) :
    r.respond c =
      { r with
        busy := false
        life := if r.curOp = 1 ∧ c = .ok then .ready else if r.curOp = 8 then .released else r.life
        claimed := if r.curOp = 1 ∧ c = .ok then r.claimed else if r.curOp = 8 then false else r.claimed
        lastStatus := c
        doneStatus := c
        doneValid := true } := by
  unfold Regs.respond Regs.endActions Regs.conclude
  dsimp only
  split_ifs <;> rfl

/-- An abort writes these registers only. -/
theorem abort_eq (c : Status) (r : Regs) :
    r.abort c =
      { r with
        busy := false
        life := if r.curOp = 1 then .unconfigured else r.life
        lastStatus := c
        doneStatus := c
        doneValid := true } := by
  unfold Regs.abort Regs.conclude
  dsimp only
  split_ifs <;> rfl

/-- An accepted command that passed validation: it is in flight, or (with nothing to do) it has responded. -/
theorem accept_ok (op : BitVec 4) (prepare : Regs → Regs) (r : Regs) :
    r.accept op .ok prepare =
      if (prepare { r with relErr := false, curOp := op }).seq = [] then
        ({ prepare { r with relErr := false, curOp := op } with k := 0 } : Regs).respond .ok
      else { prepare { r with relErr := false, curOp := op } with k := 0, busy := true } := by
  simp [Regs.accept]

/-- An accepted command that failed validation. -/
theorem accept_refused (op : BitVec 4) {c : Status} (hc : c ≠ .ok) (prepare : Regs → Regs) (r : Regs) :
    r.accept op c prepare =
      { r with relErr := false, lastStatus := c, doneStatus := c, doneValid := true } := by
  simp [Regs.accept, hc, Regs.raiseStatus, Regs.conclude]

/-! ### Edges -/

theorem cmdReady_iff (s : State) : s.cmdReady = true ↔ s.regs.busy = false ∧ s.port.rstLow = 0 := by
  simp [State.cmdReady]

/-- An answer to an outstanding transaction. -/
theorem answerEdge_some {s : State} {t : Txn} (h : s.regs.outstanding = some t) (a : Answer) :
    answerEdge a s =
      { s with
        regs := s.regs.tick.answered t a
        dev := s.dev.transact s.params.pwrQ s.regs.cfgPwrEn t a
        trace := s.trace ++ [(t, a)]
        cycle := s.cycle + 1 } := by
  simp [answerEdge, h]

/-- An answer with no request outstanding is ignored (60_exceptions R229). -/
theorem answerEdge_none {s : State} (h : s.regs.outstanding = none) (a : Answer) :
    answerEdge a s = quietEdge s := by
  simp [answerEdge, h]

/-- `SEQ[K]` is outstanding while `BUSY = 1`. -/
theorem outstanding_eq {r : Regs} (hb : r.busy = true) : r.outstanding = r.seq[r.k]? := by
  simp [Regs.outstanding, hb]

/-- Nothing is outstanding while `BUSY = 0`. -/
theorem outstanding_idle {r : Regs} (hb : r.busy = false) : r.outstanding = none := by
  simp [Regs.outstanding, hb]

@[simp] theorem answerEdge_host (a : Answer) (s : State) : (answerEdge a s).host = s.host := by
  unfold answerEdge; split <;> rfl

@[simp] theorem answerEdge_params (a : Answer) (s : State) : (answerEdge a s).params = s.params := by
  unfold answerEdge; split <;> rfl

@[simp] theorem answerEdge_port (a : Answer) (s : State) : (answerEdge a s).port = s.port := by
  unfold answerEdge; split <;> rfl

@[simp] theorem answerEdge_draws (a : Answer) (s : State) : (answerEdge a s).draws = s.draws := by
  unfold answerEdge; split <;> rfl

@[simp] theorem answerEdge_cycle (a : Answer) (s : State) : (answerEdge a s).cycle = s.cycle + 1 := by
  unfold answerEdge; split <;> rfl

/-! ### The edges of a command -/

/-- A command that is over takes no edge. -/
theorem runAnswers_idle (n : Nat) {s : State} (h : s.regs.busy = false) : runAnswers n s = s := by
  cases n <;> simp [runAnswers, h]

/-- One answered edge, then the others. -/
theorem runAnswers_succ_some (n : Nat) {s : State} {a : Answer} (hb : s.regs.busy = true)
    (ha : s.nextRsp = some a) : runAnswers (n + 1) s = runAnswers n (answerEdge a s.popRsp) := by
  simp [runAnswers, hb, ha]

/-- An edge without an answer ends the run. -/
theorem runAnswers_succ_none (n : Nat) {s : State} (hb : s.regs.busy = true) (ha : s.nextRsp = none) :
    runAnswers (n + 1) s = quietEdge s.popRsp := by
  simp [runAnswers, hb, ha]

/-- Whatever an answered edge and a quiet edge keep, the edges of a command keep. -/
theorem runAnswers_keeps {P : State → Prop} (hq : ∀ s, P s → P (quietEdge s.popRsp))
    (ha : ∀ a s, s.regs.busy = true → P s → P (answerEdge a s.popRsp)) (n : Nat) (s : State) (h : P s) :
    P (runAnswers n s) := by
  induction n generalizing s with
  | zero => exact h
  | succ n ih =>
    by_cases hb : s.regs.busy = true
    · cases hr : s.nextRsp with
      | none => rw [runAnswers_succ_none n hb hr]; exact hq s h
      | some a => rw [runAnswers_succ_some n hb hr]; exact ih _ (ha a s hb h)
    · rw [runAnswers_idle _ (by simpa using hb)]; exact h

/-- Whatever acceptance establishes and the edges keep, a presented command leaves. -/
theorem issue_keeps {P : State → Prop} {accept : State → State} {s t : State} (hr : s.cmdReady = true)
    (he : issue accept s = .next t) (h0 : P (accept s)) (hq : ∀ s, P s → P (quietEdge s.popRsp))
    (ha : ∀ a s, s.regs.busy = true → P s → P (answerEdge a s.popRsp)) : P t := by
  simp only [issue, hr, if_true, Host.Outcome.next.injEq] at he
  exact he ▸ runAnswers_keeps hq ha _ _ h0

/-- A presented command that is accepted gives a next state. -/
theorem issue_ready {s : State} (accept : State → State) (hr : s.cmdReady = true) :
    issue accept s = .next (runAnswers (accept s).regs.seq.length (accept s)) := by
  simp [issue, hr]

theorem rspAhead_succ (n : Nat) (s : State) :
    rspAhead (n + 1) s.draws s.cycle = s.nextRsp :: rspAhead n s.popRsp.draws (s.cycle + 1) := by
  rfl

/-- The state after `n` more transactions, all answered OK, of which the last is the last of `SEQ`. -/
def healthyEnd (n : Nat) (s : State) : State :=
  { s with
    regs := (Regs.shadowAll (s.regs.seq.drop s.regs.k) (s.regs.tick.atK (s.regs.seq.length - 1))).respond
      (if s.regs.relErr then .backendIo else .ok)
    dev := Device.transactAll s.params.pwrQ s.regs.cfgPwrEn (s.regs.seq.drop s.regs.k) s.dev
    trace := s.trace ++ okTrace (s.regs.seq.drop s.regs.k)
    draws := s.draws.drop n
    cycle := s.cycle + n }

/-- The rest of a command on a healthy backend (30_encoding R116, R117). -/
theorem runAnswers_healthy (n m : Nat) (s : State) (hb : s.regs.busy = true)
    (hk : s.regs.k + (n + 1) = s.regs.seq.length)
    (hh : rspAhead (n + 1) s.draws s.cycle = List.replicate (n + 1) (some .ok)) :
    runAnswers (n + 1 + m) s = healthyEnd (n + 1) s := by
  have hlt : s.regs.k < s.regs.seq.length := by omega
  have ho : s.popRsp.regs.outstanding = some s.regs.seq[s.regs.k] := by
    simp [outstanding_eq hb, hlt]
  have hd : s.regs.seq.drop s.regs.k = s.regs.seq[s.regs.k] :: s.regs.seq.drop (s.regs.k + 1) :=
    List.drop_eq_getElem_cons hlt
  rw [rspAhead_succ, List.replicate_succ, List.cons.injEq] at hh
  rw [show (n + 1 + m) = n + m + 1 by omega, runAnswers_succ_some _ hb hh.1, answerEdge_some ho]
  simp only [popRsp_regs, popRsp_dev, popRsp_params, popRsp_trace, popRsp_cycle]
  cases n with
  | zero =>
    have hlast : s.regs.tick.seq.length ≤ s.regs.tick.k + 1 := by simp; omega
    have hself : s.regs.tick.atK (s.regs.seq.length - 1) = s.regs.tick := atK_self (by simp; omega)
    have hnil : s.regs.seq.drop (s.regs.k + 1) = [] := List.drop_eq_nil_of_le (by omega)
    rw [answered_ok_last hlast, runAnswers_idle _ (by rw [respond_eq])]
    simp only [healthyEnd, hd, hnil, hself, okTrace, Device.transactAll, Regs.shadowAll, State.popRsp,
      List.map_cons, List.map_nil, tick_relErr, Nat.zero_add, List.drop_one]
    rfl
  | succ n =>
    have hnext : s.regs.tick.k + 1 < s.regs.tick.seq.length := by simp; omega
    rw [answered_ok_next hnext,
      runAnswers_healthy n m _ (by simpa using hb) (by simp; omega) (by simpa using hh.2)]
    simp only [healthyEnd, hd, okTrace, Device.transactAll, Regs.shadowAll, State.popRsp, tick_k,
      List.map_cons, shadow_tick, tick_atK, shadow_atK, tick_tick, atK_atK]
    congr 1
    · simp
    · simp
    · simp
    · omega
    · simp

/-- A command that passes validation and issues `ts`, on a healthy backend: its end, in one equation (30_encoding
R114, R116, R117). -/
theorem issue_healthy {s : State} {op : BitVec 4} {prepare : Regs → Regs} {p : Regs} {ts : List Txn}
    (hr : s.cmdReady = true) (hp : prepare { s.regs.tick with relErr := false, curOp := op } = p)
    (hseq : p.seq = ts) (hne : ts ≠ []) (hrel : p.relErr = false) (hh : Healthy ts.length s) :
    issue (acceptEdge op .ok prepare) s =
      .next { s with
        regs := (Regs.shadowAll ts (({ p with busy := true } : Regs).tick.atK (ts.length - 1))).respond .ok
        dev := Device.transactAll s.params.pwrQ p.cfgPwrEn ts s.dev
        port := { s.port with cmdValid := false }
        trace := s.trace ++ okTrace ts
        draws := s.draws.drop ts.length
        cycle := s.cycle + 1 + ts.length } := by
  obtain ⟨n, hn⟩ : ∃ n, ts.length = n + 1 := ⟨ts.length - 1, by have := List.length_pos_iff.mpr hne; omega⟩
  have hacc : (acceptEdge op .ok prepare s).regs = ({ p with busy := true } : Regs).atK 0 := by
    rw [acceptEdge_regs, accept_ok, hp, if_neg (by rw [hseq]; exact hne)]; rfl
  rw [issue_ready _ hr]
  have hrun := runAnswers_healthy n 0 (acceptEdge op .ok prepare s) (by rw [hacc]; rfl)
    (by rw [hacc]; simp [hseq, hn])
    (by simpa [Healthy, BackendAnswers, hn] using hh)
  have hlen : (acceptEdge op .ok prepare s).regs.seq.length = n + 1 + 0 := by rw [hacc]; simp [hseq, hn]
  rw [hlen, hrun]
  simp only [healthyEnd, hacc, atK_seq, atK_k, List.drop_zero, atK_relErr, atK_cfgPwrEn, tick_atK, atK_atK, hseq, hrel,
    hn, acceptEdge_params, acceptEdge_dev, acceptEdge_trace, acceptEdge_draws, acceptEdge_cycle]
  rfl

/-- A command that fails validation (60_exceptions R224). -/
theorem issue_refused {s : State} {op : BitVec 4} {c : Status} {prepare : Regs → Regs} (hr : s.cmdReady = true)
    (hc : c ≠ .ok) : issue (acceptEdge op c prepare) s = .next (refusedWith c s) := by
  have hb := ((cmdReady_iff s).mp hr).1
  have hacc : acceptEdge op c prepare s = refusedWith c s := by
    simp only [acceptEdge, accept_refused op hc, refusedWith]; rfl
  rw [issue_ready _ hr, hacc, runAnswers_idle]
  simpa using hb

/-- The state after `j` transactions answered OK and one answered ERR that ends the command. -/
def abortedEnd (j : Nat) (t : Txn) (s : State) : State :=
  { s with
    regs := ((Regs.shadowAll ((s.regs.seq.drop s.regs.k).take j) (s.regs.tick.atK (s.regs.k + j))).shadow t
      .err).abort .backendIo
    dev := (Device.transactAll s.params.pwrQ s.regs.cfgPwrEn ((s.regs.seq.drop s.regs.k).take j) s.dev).transact
      s.params.pwrQ s.regs.cfgPwrEn t .err
    trace := s.trace ++ okTrace ((s.regs.seq.drop s.regs.k).take j) ++ [(t, .err)]
    draws := s.draws.drop (j + 1)
    cycle := s.cycle + (j + 1) }

/-- The rest of a command whose `j`-th transaction from now is answered ERR and ends it (60_exceptions R225,
R227). -/
theorem runAnswers_aborted (j m : Nat) (t : Txn) (s : State) (hb : s.regs.busy = true)
    (ht : s.regs.seq[s.regs.k + j]? = some t) (h8 : s.regs.curOp = 8 → t = .releaseAll)
    (hh : rspAhead (j + 1) s.draws s.cycle = List.replicate j (some .ok) ++ [some .err]) :
    runAnswers (j + 1 + m) s = abortedEnd j t s := by
  have hlt' : s.regs.k + j < s.regs.seq.length := (List.getElem?_eq_some_iff.mp ht).1
  have hlt : s.regs.k < s.regs.seq.length := by omega
  have hd : s.regs.seq.drop s.regs.k = s.regs.seq[s.regs.k] :: s.regs.seq.drop (s.regs.k + 1) :=
    List.drop_eq_getElem_cons hlt
  have ho : s.popRsp.regs.outstanding = some s.regs.seq[s.regs.k] := by
    simp [outstanding_eq hb, hlt]
  rw [rspAhead_succ] at hh
  cases j with
  | zero =>
    have ht0 : s.regs.seq[s.regs.k] = t := by simpa [hlt] using ht
    rw [List.replicate_zero, List.nil_append, List.cons.injEq] at hh
    rw [show (0 + 1 + m) = m + 1 by omega, runAnswers_succ_some _ hb hh.1, answerEdge_some ho]
    simp only [popRsp_regs, popRsp_dev, popRsp_params, popRsp_trace, popRsp_cycle, ht0]
    rw [answered_err_abort (by simpa using h8), runAnswers_idle _ (by rw [abort_eq])]
    have hself : s.regs.tick.atK s.regs.k = s.regs.tick := atK_self (by simp)
    simp only [abortedEnd, okTrace, Device.transactAll, Regs.shadowAll, State.popRsp, Nat.zero_add, Nat.add_zero,
      List.take_zero, List.map_nil, List.append_nil, hself, List.drop_one]
  | succ j =>
    rw [List.replicate_succ, List.cons_append, List.cons.injEq] at hh
    rw [show (j + 1 + 1 + m) = j + 1 + m + 1 by omega, runAnswers_succ_some _ hb hh.1, answerEdge_some ho]
    simp only [popRsp_regs, popRsp_dev, popRsp_params, popRsp_trace, popRsp_cycle]
    have hnext : s.regs.tick.k + 1 < s.regs.tick.seq.length := by simp; omega
    rw [answered_ok_next hnext]
    rw [runAnswers_aborted j m t _ (by simpa using hb)
      (by simpa [Nat.add_assoc, Nat.add_comm 1 j] using ht) (by simpa using h8) (by simpa using hh.2)]
    simp only [abortedEnd, hd, okTrace, Device.transactAll, Regs.shadowAll, State.popRsp, tick_k,
      List.map_cons, shadow_tick, tick_atK, shadow_atK, tick_tick, atK_atK, List.take_succ_cons]
    congr 1
    · simp [Nat.add_assoc, Nat.add_comm 1 j]
    · simp
    · simp
    · omega
    · simp

/-- A command that passes validation and whose transaction `j` is answered ERR, which ends it (60_exceptions R225,
R227). -/
theorem issue_aborted {s : State} {op : BitVec 4} {prepare : Regs → Regs} {p : Regs} {ts : List Txn} {j : Nat}
    {t : Txn} (hr : s.cmdReady = true) (hp : prepare { s.regs.tick with relErr := false, curOp := op } = p)
    (hseq : p.seq = ts) (ht : ts[j]? = some t) (h8 : p.curOp = 8 → t = .releaseAll)
    (hh : BackendAnswers (List.replicate j .ok ++ [.err]) s) :
    issue (acceptEdge op .ok prepare) s =
      .next { s with
        regs := ((Regs.shadowAll (ts.take j) (({ p with busy := true } : Regs).tick.atK j)).shadow t .err).abort
          .backendIo
        dev := (Device.transactAll s.params.pwrQ p.cfgPwrEn (ts.take j) s.dev).transact s.params.pwrQ p.cfgPwrEn t
          .err
        port := { s.port with cmdValid := false }
        trace := s.trace ++ okTrace (ts.take j) ++ [(t, .err)]
        draws := s.draws.drop (j + 1)
        cycle := s.cycle + 1 + (j + 1) } := by
  have hlt : j < ts.length := (List.getElem?_eq_some_iff.mp ht).1
  have hne : ts ≠ [] := fun h => by simp [h] at hlt
  have hacc : (acceptEdge op .ok prepare s).regs = ({ p with busy := true } : Regs).atK 0 := by
    rw [acceptEdge_regs, accept_ok, hp, if_neg (by rw [hseq]; exact hne)]; rfl
  rw [issue_ready _ hr]
  have hrun := runAnswers_aborted j (ts.length - (j + 1)) t (acceptEdge op .ok prepare s) (by rw [hacc]; rfl)
    (by rw [hacc]; simpa [hseq] using ht) (by rw [hacc]; simpa using h8)
    (by simpa [BackendAnswers] using hh)
  have hlen : (acceptEdge op .ok prepare s).regs.seq.length = j + 1 + (ts.length - (j + 1)) := by
    rw [hacc]; simp [hseq]; omega
  rw [hlen, hrun]
  simp only [abortedEnd, hacc, atK_seq, atK_k, List.drop_zero, atK_cfgPwrEn, tick_atK, atK_atK, hseq, Nat.zero_add,
    acceptEdge_params, acceptEdge_dev, acceptEdge_trace, acceptEdge_draws, acceptEdge_cycle]
  rfl

end Sys2Proof.Machine
end

