-- ==== Sys2Proof/Laws/Exec.lean ====
section
/-! SUPPORT. Every command has one shape: its opcode, its own checks, its `Prepare`; and what a step can be, said
once. -/

namespace Sys2Proof.Machine

/-- The opcode of a command (30_encoding R109). -/
def opcodeOf : Instr → BitVec 4
  | .init _ _ _ _ _ _ _ => 1
  | .setBit _ => 2
  | .shift => 3
  | .clearData => 4
  | .loadFrame _ _ => 5
  | .store => 6
  | .clear => 7
  | .release => 8

/-- The command's own checks, after admission (60_exceptions R221). -/
def ownCheck (i : Instr) (s : State) : Status :=
  match i with
  | .init pwrEn _ width d st sh pw => configCheck s.params.wmax pwrEn width d st sh pw
  | .setBit bsym => checkSetBit bsym
  | .loadFrame len payload => checkLoadFrame len payload s.regs
  | .shift | .clearData | .store | .clear | .release => .ok

/-- The command's `Prepare` (30_encoding R115). -/
def prepareOf (i : Instr) : Regs → Regs :=
  match i with
  | .init pwrEn warn width d st sh pw => prepareInit pwrEn warn width d st sh pw
  | .setBit bsym => prepareSetBit bsym
  | .shift => prepareShift
  | .clearData => prepareClearData
  | .loadFrame _ payload => prepareLoadFrame payload
  | .store => prepareStore
  | .clear => prepareClear
  | .release => prepareRelease

/-- The acceptance edge of a command. -/
def acceptOf (i : Instr) (s : State) : State :=
  acceptEdge (opcodeOf i) (checkAdmitted (opcodeOf i) s.regs.life (ownCheck i s)) (prepareOf i) s

/-- The registers `Prepare` starts from, and what it makes of them. -/
def preparedRegs (i : Instr) (s : State) : Regs :=
  prepareOf i { s.regs.tick with relErr := false, curOp := opcodeOf i }

/-- Every command is issued in the same way. -/
theorem exec_eq_issue (i : Instr) (s : State) : exec i s = issue (acceptOf i) s := by
  cases i <;> rfl

theorem acceptInstr_eq_acceptOf (i : Instr) (s : State) : acceptInstr i s = acceptOf i s := by
  cases i <;> rfl

theorem rowOf_eq_initRow (i : Instr) : rowOf i = initRow ↔ opcodeOf i = 1 := by
  cases i <;> simp [rowOf, opcodeOf] <;> decide

theorem rowOf_eq_releaseRow (i : Instr) : rowOf i = releaseRow ↔ opcodeOf i = 8 := by
  cases i <;> simp [rowOf, opcodeOf] <;> decide

theorem preparedRegs_curOp (i : Instr) (s : State) : (preparedRegs i s).curOp = opcodeOf i := by
  cases i <;> rfl

theorem preparedRegs_life (i : Instr) (s : State) : (preparedRegs i s).life = s.regs.life := by
  cases i <;> rfl

/-- The acceptance edge of a command that passes validation. -/
theorem acceptOf_ok {i : Instr} {s : State} (h : checkAdmitted (opcodeOf i) s.regs.life (ownCheck i s) = .ok) :
    acceptOf i s =
      { s with
        regs :=
          if (preparedRegs i s).seq = [] then ({ preparedRegs i s with k := 0 } : Regs).respond .ok
          else { preparedRegs i s with k := 0, busy := true }
        port := { s.port with cmdValid := false }
        cycle := s.cycle + 1 } := by
  unfold acceptOf
  rw [h]
  unfold acceptEdge
  rw [accept_ok]
  rfl

/-- A command that fails validation. -/
theorem exec_invalid {i : Instr} {s : State} (hr : s.cmdReady = true)
    (h : checkAdmitted (opcodeOf i) s.regs.life (ownCheck i s) ≠ .ok) :
    exec i s = .next (refusedWith (checkAdmitted (opcodeOf i) s.regs.life (ownCheck i s)) s) := by
  rw [exec_eq_issue]
  exact issue_refused hr h

/-- A command that passes validation, on a healthy backend. -/
theorem exec_healthy {i : Instr} {s : State} {p : Regs} {ts : List Txn} (hr : s.cmdReady = true)
    (hc : checkAdmitted (opcodeOf i) s.regs.life (ownCheck i s) = .ok) (hp : preparedRegs i s = p)
    (hseq : p.seq = ts) (hne : ts ≠ []) (hrel : p.relErr = false) (hh : Healthy ts.length s) :
    exec i s =
      .next { s with
        regs := (Regs.shadowAll ts (({ p with busy := true } : Regs).tick.atK (ts.length - 1))).respond .ok
        dev := Device.transactAll s.params.pwrQ p.cfgPwrEn ts s.dev
        port := { s.port with cmdValid := false }
        trace := s.trace ++ okTrace ts
        draws := s.draws.drop ts.length
        cycle := s.cycle + 1 + ts.length } := by
  rw [exec_eq_issue, ← issue_healthy (op := opcodeOf i) (prepare := prepareOf i) hr hp hseq hne hrel hh]
  simp only [issue, acceptOf, hc]

/-- A field of the registers that no answer and no end of a command writes is kept by an answered edge. -/
theorem answerEdge_keeps_field {β : Type} (f : Regs → β) (hs : ∀ r t a, f (Regs.shadow r t a) = f r)
    (hr : ∀ r c, f (Regs.respond c r) = f r) (hab : ∀ r c, f (Regs.abort c r) = f r)
    (hk : ∀ r n, f (Regs.atK n r) = f r) (ht : ∀ r, f (Regs.tick r) = f r)
    (hrel : ∀ (r : Regs) n, f { r with relErr := true, k := n } = f r) (a : Answer) (s : State) :
    f (answerEdge a s).regs = f s.regs := by
  cases ho : s.regs.outstanding with
  | none => rw [answerEdge_none ho, quietEdge_regs, ht]
  | some t =>
    rw [answerEdge_some ho]
    dsimp only
    rcases answered_cases s.regs.tick t a with ⟨_, _, h⟩ | ⟨_, _, h⟩ | ⟨_, _, _, h⟩ | ⟨_, _, h⟩ <;> rw [h]
    · rw [hk, hs, ht]
    · rw [hr, hs, ht]
    · rw [hrel, hs, ht]
    · rw [hab, hs, ht]

/-- … and by all the edges of a command. -/
theorem runAnswers_keeps_field {β : Type} (f : Regs → β) (hs : ∀ r t a, f (Regs.shadow r t a) = f r)
    (hr : ∀ r c, f (Regs.respond c r) = f r) (hab : ∀ r c, f (Regs.abort c r) = f r)
    (hk : ∀ r n, f (Regs.atK n r) = f r) (ht : ∀ r, f (Regs.tick r) = f r)
    (hrel : ∀ (r : Regs) n, f { r with relErr := true, k := n } = f r) (n : Nat) (s : State) :
    f (runAnswers n s).regs = f s.regs := by
  refine runAnswers_keeps (P := fun t => f t.regs = f s.regs) ?_ ?_ n s rfl
  · intro t h
    rw [quietEdge_regs, ht, popRsp_regs, h]
  · intro a t _ h
    rw [answerEdge_keeps_field f hs hr hab hk ht hrel, popRsp_regs, h]

theorem acceptIllegal_eq (s : State) : acceptIllegal s = refusedWith .illegalCmd s := by
  simp only [acceptIllegal, acceptEdge, accept_refused 0 (by decide : Status.illegalCmd ≠ .ok), refusedWith]
  rfl

/-- What a step that answers a next state was (60_exceptions R223). -/
theorem step_cases {s t : State} (h : step s = .next t) :
    (0 < s.port.rstLow ∧ t = resetEdge s) ∨
    (s.port.rstLow = 0 ∧ s.regs.busy = true ∧ s.regs.k < s.regs.seq.length ∧
      t = runAnswers (s.regs.seq.length - s.regs.k) s) ∨
    (s.cmdReady = true ∧ s.port.cmdValid = true ∧ ∃ i, fetchCommand s = .ok i ∧ exec i s = .next t) ∨
    (s.cmdReady = true ∧ s.port.cmdValid = true ∧ ∃ e, fetchCommand s = .error e ∧
      t = refusedWith .illegalCmd s) ∨
    (s.cmdReady = true ∧ s.port.cmdValid = false ∧ t = idleEdge s) := by
  unfold step at h
  split at h
  · exact .inl ⟨by assumption, (Host.Outcome.next.inj h).symm⟩
  · have hl : s.port.rstLow = 0 := by omega
    split at h
    · rename_i hb
      unfold resume at h
      split at h
      · exact .inr (.inl ⟨hl, hb, by assumption, (Host.Outcome.next.inj h).symm⟩)
      · cases h
    · rename_i hb
      have hr : s.cmdReady = true := (cmdReady_iff s).mpr ⟨by simpa using hb, hl⟩
      split at h
      · rename_i hv
        split at h
        · exact .inr (.inr (.inl ⟨hr, hv, _, by assumption, h⟩))
        · exact .inr (.inr (.inr (.inl ⟨hr, hv, _, by assumption,
            (Host.Outcome.next.inj h).symm.trans (acceptIllegal_eq s)⟩)))
      · rename_i hv
        exact .inr (.inr (.inr (.inr ⟨hr, by simpa using hv, (Host.Outcome.next.inj h).symm⟩)))

end Sys2Proof.Machine
end

