-- ==== Sys2Proof/Laws/Host.lean ====
section
/-! SUPPORT. What the host sees, and what it does at an idle edge, said once. -/

namespace Sys2Proof.Machine

/-- The host sees a status exactly so (45_host_sequencer R181, R195). -/
theorem hostSees_eq_some {r : Regs} {h : HostAgent} {code : Status} :
    hostSees r h = some code ↔
      h.awaiting = true ∧
        ((h.readsStatus = false ∧ r.doneValid = true ∧ code = r.doneStatus)
          ∨ (h.readsStatus = true ∧ h.misses.headD 0 = 0 ∧ code = r.lastStatus)) := by
  unfold hostSees
  cases h.awaiting <;> cases h.readsStatus <;> cases r.doneValid <;> simp [eq_comm]

@[simp] theorem hostSees_not_awaiting {r : Regs} {h : HostAgent} (ha : h.awaiting = false) : hostSees r h = none := by
  simp [hostSees, ha]

@[simp] theorem hostReceive_not_awaiting {r : Regs} {h : HostAgent} (ha : h.awaiting = false) :
    hostReceive r h = h := by
  simp [hostReceive, ha]

@[simp] theorem hostExit_inited (code : Status) (h : HostAgent) : (hostExit code h).inited = h.inited := rfl

@[simp] theorem hostExit_awaiting (code : Status) (h : HostAgent) : (hostExit code h).awaiting = h.awaiting := rfl

@[simp] theorem hostExit_owes (code : Status) (h : HostAgent) : (hostExit code h).owes = h.owes := rfl

@[simp] theorem hostExit_cut (code : Status) (h : HostAgent) : (hostExit code h).cut = h.cut := rfl

@[simp] theorem hostNote_inited (r : Regs) (h : HostAgent) : (hostNote r h).inited = h.inited := rfl

@[simp] theorem hostNote_awaiting (r : Regs) (h : HostAgent) : (hostNote r h).awaiting = false := rfl

@[simp] theorem hostNote_stage (r : Regs) (h : HostAgent) : (hostNote r h).stage = h.stage := rfl

@[simp] theorem hostNote_retries (r : Regs) (h : HostAgent) : (hostNote r h).retries = h.retries := rfl

@[simp] theorem hostNote_cut (r : Regs) (h : HostAgent) : (hostNote r h).cut = leftClaimed r h.cut := rfl

/-- A release is owed after a response if it was owed or the block is READY, unless the block is RELEASED with no line
left that a reset left claimed (70_reset_and_hazards R259, R262). -/
theorem hostNote_owes (r : Regs) (h : HostAgent) :
    (hostNote r h).owes = true ↔
      (h.owes = true ∨ r.life = .ready) ∧ ¬(r.life = .released ∧ leftClaimed r h.cut = []) := by
  simp only [hostNote, Bool.and_eq_true, Bool.or_eq_true, Bool.not_eq_true', Bool.and_eq_false_iff, beq_iff_eq,
    beq_eq_false_iff_ne, ne_eq, not_and_or]

/-- Nothing claimed: every line a reset left claimed is still left (70_reset_and_hazards R262). -/
@[simp] theorem leftClaimed_unclaimed {r : Regs} (hc : r.claimed = false) (cut : List HostConfig) :
    leftClaimed r cut = cut := by
  simp [leftClaimed, hc]

/-- What is still left, was left; and what is no longer left is claimed by the block (70_reset_and_hazards R262). -/
theorem mem_leftClaimed {r : Regs} {cut : List HostConfig} {c : HostConfig} :
    c ∈ leftClaimed r cut ↔ c ∈ cut ∧ (r.claimed = true → ¬c.lines ⊆ r.hostConfig.lines) := by
  unfold leftClaimed
  split_ifs with hc <;> simp [hc]

@[simp] theorem hostResponse_inited (code : Status) (l : Life) (h : HostAgent) :
    (hostResponse code l h).inited = h.inited := by
  unfold hostResponse
  split <;> (try split_ifs) <;> rfl

@[simp] theorem hostResponse_awaiting (code : Status) (l : Life) (h : HostAgent) :
    (hostResponse code l h).awaiting = h.awaiting := by
  unfold hostResponse
  split <;> (try split_ifs) <;> rfl

@[simp] theorem hostResponse_owes (code : Status) (l : Life) (h : HostAgent) :
    (hostResponse code l h).owes = h.owes := by
  unfold hostResponse
  split <;> (try split_ifs) <;> rfl

@[simp] theorem hostResponse_cut (code : Status) (l : Life) (h : HostAgent) :
    (hostResponse code l h).cut = h.cut := by
  unfold hostResponse
  split <;> (try split_ifs) <;> rfl

@[simp] theorem hostReceive_inited (r : Regs) (h : HostAgent) : (hostReceive r h).inited = h.inited := by
  unfold hostReceive
  split
  · simp
  · split_ifs <;> rfl

/-- What the host knows of the lines and of its duty changes only at a response (70_reset_and_hazards R259, R262). -/
theorem hostReceive_notes (r : Regs) (h : HostAgent) :
    (hostReceive r h).owes = (if (hostSees r h).isSome then (hostNote r h).owes else h.owes) ∧
      (hostReceive r h).cut = (if (hostSees r h).isSome then leftClaimed r h.cut else h.cut) := by
  unfold hostReceive
  split
  · rename_i hs
    simp [hs]
  · rename_i hs
    split_ifs <;> simp_all

/-- A host that goes on waiting has seen nothing and stays at its duty. -/
theorem hostReceive_awaiting {r : Regs} {h : HostAgent} (ha : (hostReceive r h).awaiting = true) :
    h.awaiting = true ∧ hostSees r h = none ∧ (hostReceive r h).stage = h.stage := by
  unfold hostReceive at *
  split at ha
  · simp at ha
  · rename_i hn
    refine ⟨?_, hn, ?_⟩
    · split_ifs at ha <;> exact ha
    · split_ifs <;> rfl

/-- The release duty is done exactly so (45_host_sequencer R194; 70_reset_and_hazards R259, R262). -/
theorem dutyDone_iff {l : Life} {h : HostAgent} :
    dutyDone l h = true ↔
      h.inited = false ∧ h.cut = [] ∧ (l = .released ∨ (h.owes = false ∧ h.retries = 0)) := by
  simp [dutyDone, and_assoc]

/-- The response with which the host ends: that to a RELEASE, with no line left claimed by a reset, and RELEASED unless
no release is owed and no try is left (45_host_sequencer R194; 70_reset_and_hazards R259, R262). -/
theorem hostReceive_exited {r : Regs} {h : HostAgent} (hx : (hostReceive r h).stage = .exited)
    (hn : h.stage ≠ .exited) :
    h.stage = .releasing ∧ h.inited = false ∧ leftClaimed r h.cut = [] ∧
      (r.life = .released ∨ ((hostNote r h).owes = false ∧ h.retries = 0)) ∧
      ∃ code, hostSees r h = some code := by
  unfold hostReceive at hx
  split at hx
  · rename_i code hs
    unfold hostResponse at hx
    split at hx
    · split_ifs at hx ; simp_all
    · split_ifs at hx ; simp_all
    · rename_i hst
      split_ifs at hx with hd
      · obtain ⟨h1, h2, h3⟩ := dutyDone_iff.mp hd
        exact ⟨hst, h1, h2, h3, code, hs⟩
      · exact absurd (hst.symm.trans hx) (by decide)
      · exact absurd (hst.symm.trans hx) (by decide)
    · simp_all
    · rename_i hst
      exact absurd hst hn
  · split_ifs at hx <;> exact absurd hx hn

/-- The command of the release duty: RELEASE, or the INIT whose lines a reset left claimed (45_host_sequencer R194,
70_reset_and_hazards R262). -/
theorem hostRelease_cases (claimed : Bool) (h : HostAgent) :
    hostRelease claimed h = ({ h with awaiting := true, inited := false }, some (encode .release)) ∨
      ∃ c, c ∈ h.cut ∧ claimed = false ∧
        hostRelease claimed h = ({ h with awaiting := true, inited := true }, some (encode (hostInit c))) := by
  unfold hostRelease
  split
  · rename_i c l hc
    exact .inr ⟨c, by simp [hc], rfl, rfl⟩
  · exact .inl rfl

/-- The host's INIT is an INIT (40_init R130). -/
@[simp] theorem opOf_hostInit (c : HostConfig) : opOf (encode (hostInit c)).1 = 1 := opOf_headerWord ..

@[simp] theorem opOf_release : opOf (encode .release).1 = 8 := opOf_headerWord ..

/-- What the host is when it presents a command at an idle edge, and which command that can be (45_host_sequencer
R181, R194, R195). -/
theorem hostAct_presents {pr : Params} {claimed : Bool} {h : HostAgent} {c : Header × Payload}
    (hc : (hostAct pr claimed h).2 = some c) :
    h.awaiting = false ∧ (hostAct pr claimed h).1.awaiting = true ∧ (hostAct pr claimed h).1.stage = h.stage ∧
      (opOf c.1 = 1 ∨ opOf c.1 = 8 ∨ h.inited = true) ∧ (hostAct pr claimed h).1.inited = decide (opOf c.1 ≠ 8) ∧
      (h.stage = .releasing →
        c = encode .release ∨ ∃ x, x ∈ h.cut ∧ claimed = false ∧ c = encode (hostInit x)) := by
  have follow : ∀ {g : HostAgent}, (hostFollow pr g).2 = some c →
      (hostFollow pr g).1.awaiting = true ∧ (hostFollow pr g).1.stage = g.stage ∧
        (opOf c.1 = 1 ∨ opOf c.1 = 8 ∨ g.inited = true) ∧
        (hostFollow pr g).1.inited = decide (opOf c.1 ≠ 8) := by
    intro g hg
    unfold hostFollow at *
    split at hg
    · simp at hg
    · rename_i hl
      rw [if_neg hl]
      split at hg
      · simp at hg
      · rename_i a rest hp
        split_ifs at hg with hn
        simp only [if_neg hn]
        cases a with
        | cmd hdr frame =>
          simp only [hostBegin, Option.some.injEq] at hg ⊢
          subst hg
          refine ⟨trivial, trivial, ?_, ?_⟩ <;> simp only [needsInit, decide_eq_true_eq] at hn <;>
            by_cases h1 : opOf hdr = 1 <;> by_cases h8 : opOf hdr = 8 <;> simp_all
        | _ => simp [hostBegin] at hg
  unfold hostAct at *
  split at hc
  · simp at hc
  · rename_i ha
    simp only [if_neg ha]
    have ha' : h.awaiting = false := by simpa using ha
    split at hc
    · simp at hc
    · simp at hc
    · rename_i hst
      split_ifs at hc with hi
      simp only [if_neg hi]
      obtain ⟨a, b, d, e⟩ := follow hc
      exact ⟨ha', a, b, d, e, fun hr => by simp [hst] at hr⟩
    · rename_i hst
      obtain ⟨a, b, d, e⟩ := follow hc
      exact ⟨ha', a, b, d, e, fun hr => by simp [hst] at hr⟩
    · rename_i hst
      rcases hostRelease_cases claimed h with hr | ⟨x, hx, hf, hr⟩ <;> rw [hr] at hc ⊢ <;>
        simp only [Option.some.injEq] at hc <;> subst hc
      · exact ⟨ha', rfl, rfl, .inr (.inl (opOf_release)), by simp, fun _ => .inl rfl⟩
      · exact ⟨ha', rfl, rfl, .inl (opOf_hostInit x), by simp, fun _ => .inr ⟨x, hx, hf, rfl⟩⟩

/-- What the host is when it presents nothing at an idle edge. -/
theorem hostAct_silent {pr : Params} {claimed : Bool} {h : HostAgent} (hc : (hostAct pr claimed h).2 = none) :
    (hostAct pr claimed h).1.awaiting = h.awaiting ∧ (hostAct pr claimed h).1.inited = h.inited ∧
      ((hostAct pr claimed h).1.stage = .exited → h.stage = .exited) := by
  have follow : ∀ {g : HostAgent}, (hostFollow pr g).2 = none →
      (hostFollow pr g).1.awaiting = g.awaiting ∧ (hostFollow pr g).1.inited = g.inited ∧
        ((hostFollow pr g).1.stage = .exited → g.stage = .exited) := by
    intro g hg
    unfold hostFollow at *
    split at hg
    · rename_i hl
      rw [if_pos hl]
      exact ⟨rfl, rfl, id⟩
    · rename_i hl
      rw [if_neg hl]
      split at hg
      · exact ⟨rfl, rfl, fun h => by simp at h⟩
      · rename_i a rest hp
        split_ifs at hg with hn
        · simp only [if_pos hn]
          exact ⟨trivial, trivial, id⟩
        · simp only [if_neg hn]
          cases a with
          | cmd hdr frame => simp [hostBegin] at hg
          | _ => exact ⟨rfl, rfl, id⟩
  unfold hostAct at *
  split at hc
  · rename_i ha
    simp only [if_pos ha]
    exact ⟨trivial, trivial, id⟩
  · rename_i ha
    simp only [if_neg ha]
    split at hc
    · rename_i hst; simp [hst]
    · rename_i hst; simp [hst]
    · rename_i hst
      split_ifs at hc with hi
      · simp only [if_pos hi]
        exact ⟨rfl, rfl, fun h => by simp [hostInterrupt] at h⟩
      · simp only [if_neg hi]
        exact follow hc
    · exact follow hc
    · rcases hostRelease_cases claimed h with hr | ⟨x, _, _, hr⟩ <;> simp [hr] at hc

/-- What the host knows of the lines and of its duty changes only at a response and at a reset (70_reset_and_hazards
R259, R262). -/
theorem hostAct_notes (pr : Params) (claimed : Bool) (h : HostAgent) :
    (hostAct pr claimed h).1.owes = h.owes ∧ (hostAct pr claimed h).1.cut = h.cut := by
  have begins : ∀ (a : HostAct) (g : HostAgent),
      (hostBegin pr a g).1.owes = g.owes ∧ (hostBegin pr a g).1.cut = g.cut := by
    intro a g
    cases a <;> exact ⟨rfl, rfl⟩
  have follow : ∀ g : HostAgent, (hostFollow pr g).1.owes = g.owes ∧ (hostFollow pr g).1.cut = g.cut := by
    intro g
    unfold hostFollow
    split
    · exact ⟨rfl, rfl⟩
    · split
      · exact ⟨rfl, rfl⟩
      · split
        · exact ⟨rfl, rfl⟩
        · exact begins _ _
  unfold hostAct
  split
  · exact ⟨rfl, rfl⟩
  · split
    · exact ⟨rfl, rfl⟩
    · exact ⟨rfl, rfl⟩
    · split
      · exact ⟨rfl, rfl⟩
      · exact follow h
    · exact follow h
    · rcases hostRelease_cases claimed h with hr | ⟨x, _, _, hr⟩ <;> rw [hr] <;> exact ⟨rfl, rfl⟩

/-- While a response is awaited the host does nothing but wait. -/
@[simp] theorem hostAct_awaiting {pr : Params} {claimed : Bool} {h : HostAgent} (ha : h.awaiting = true) :
    hostAct pr claimed h = (h, none) := by
  simp [hostAct, ha]

/-! ### A reset -/

/-- What a lost response changes: the wait, and the program's duty (70_reset_and_hazards R252). -/
theorem hostLost_keeps (h : HostAgent) :
    (hostLost h).inited = h.inited ∧ (hostLost h).owes = h.owes ∧ (hostLost h).cut = h.cut ∧
      (hostLost h).awaiting = false ∧
      (hostLost h).stage = if h.stage = .running ∨ h.stage = .shutdown then .releasing else h.stage := by
  unfold hostLost
  split <;> simp_all

/-- After a reset an INIT counts as issued only if it stands on the port (70_reset_and_hazards R254, R258). -/
theorem hostReset_inited (r : Regs) (p : Port) (h : HostAgent) :
    (hostReset r p h).inited = (h.awaiting && p.cmdValid && opOf p.cmdHdr == 1) := by
  unfold hostReset
  split_ifs <;> (try simp only [hostLost_keeps]) <;> rfl

/-- After a reset the host awaits the response only of a command not yet accepted (70_reset_and_hazards R252, R258). -/
theorem hostReset_awaiting (r : Regs) (p : Port) (h : HostAgent) :
    (hostReset r p h).awaiting = (h.awaiting && p.cmdValid) := by
  unfold hostReset
  split_ifs with hl
  · simp [hostLost_keeps, hl]
  · cases ha : h.awaiting <;> cases hp : p.cmdValid <;> simp_all [hostMark]

/-- A reset leaves the duty to release, and takes it up if the block was READY (70_reset_and_hazards R259). -/
theorem hostReset_owes (r : Regs) (p : Port) (h : HostAgent) :
    (hostReset r p h).owes = (h.owes || r.life == .ready) := by
  unfold hostReset
  split_ifs <;> (try simp only [hostLost_keeps]) <;> rfl

/-- A reset leaves the claimed lines claimed (70_reset_and_hazards R262). -/
theorem hostReset_cut (r : Regs) (p : Port) (h : HostAgent) :
    (hostReset r p h).cut = if r.claimed then r.hostConfig :: leftClaimed r h.cut else h.cut := by
  unfold hostReset
  split <;> (try simp only [hostLost_keeps]) <;> rfl

/-- A reset ends the program whose response it lost, and changes the host's duty in no other way (log entry 4). -/
theorem hostReset_stage (r : Regs) (p : Port) (h : HostAgent) :
    (hostReset r p h).stage =
      if (h.awaiting = true ∧ p.cmdValid = false) ∧ (h.stage = .running ∨ h.stage = .shutdown) then .releasing
      else h.stage := by
  unfold hostReset
  split_ifs <;> simp_all [hostLost_keeps, hostMark]

end Sys2Proof.Machine
end

