-- ==== Sys2Proof/Laws/PerInstr.lean ====
section
/-! SUPPORT. Statements for all commands, one lemma per constructor. -/

namespace Sys2Proof.Laws.EncodedHeaderFits

/-- The header a command is encoded by passes its own row's mask test and carries its row's opcode (30_encoding
R109). -/
def Statement (i : Instr) : Prop :=
  fitsRow (rowOf i) (encode i).1 = true ∧ opOf (encode i).1 = opOf (rowOf i).pattern

theorem init (pwrEn warn : Bool) (width : BitVec 8) (dataLine stcpLine shcpLine pwrLine : LineId) :
    Statement (.init pwrEn warn width dataLine stcpLine shcpLine pwrLine) := by
  refine ⟨?_, by simp only [encode, opOf_headerWord]; rfl⟩
  simp only [rowOf, encode, fitsRow, initRow, beq_iff_eq]
  apply BitVec.eq_of_getLsbD_eq
  intro i hi
  rw [BitVec.getLsbD_and, headerWord_getLsbD]
  interval_cases i <;> simp

theorem setBit (bsym : BitVec 2) : Statement (.setBit bsym) := by
  refine ⟨?_, by simp only [encode, opOf_headerWord]; rfl⟩
  simp only [rowOf, encode, fitsRow, setBitRow, beq_iff_eq]
  apply BitVec.eq_of_getLsbD_eq
  intro i hi
  rw [BitVec.getLsbD_and, headerWord_getLsbD]
  interval_cases i <;> simp

theorem shift : Statement .shift := ⟨by decide, by decide⟩

theorem clearData : Statement .clearData := ⟨by decide, by decide⟩

theorem loadFrame (len : BitVec 8) (payload : Payload) : Statement (.loadFrame len payload) := by
  refine ⟨?_, by simp only [encode, opOf_headerWord]; rfl⟩
  simp only [rowOf, encode, fitsRow, loadFrameRow, beq_iff_eq]
  apply BitVec.eq_of_getLsbD_eq
  intro i hi
  rw [BitVec.getLsbD_and, headerWord_getLsbD]
  interval_cases i <;> simp

theorem store : Statement .store := ⟨by decide, by decide⟩

theorem clear : Statement .clear := ⟨by decide, by decide⟩

theorem release : Statement .release := ⟨by decide, by decide⟩

end Sys2Proof.Laws.EncodedHeaderFits
end

