-- ==== Sys2Proof/Tests/Slice0.lean ====
section
/-! SUPPORT. Tests on fixed values, each expected result from spec/95_test_vectors.md, and for each obligation with
hypotheses a witness that meets them together. -/

namespace Sys2Proof.Tests

open Sys2Proof Sys2Proof.Machine

/-! ### The states of 95_test_vectors section 0, with a device of `W` stages and `WMAX = 8` -/

/-- `n` answers at once, all OK. -/
def oks (n : Nat) : List (Option Answer) := List.replicate n (some .ok)

/-- `ERR@j`: transaction `j` is answered ERR, the others OK. -/
def errAt (j : Nat) : List (Option Answer) := oks j ++ some .err :: oks 40

/-- Z0: after reset. -/
def z0 (draws : List (Option Answer)) : State :=
  { State.reset with
    regs := Regs.reset 8
    dev := Device.powerUp 4
    draws := draws
    params := { wmax := 8, pwrQ := .hold, holdUnit := 1, shutdownHold := 1 } }

/-- S0(W), or S0p(W) with a power line: booted, data, register and outputs all 0. -/
def s0 (w : Nat) (pwr : Bool) (draws : List (Option Answer)) : State :=
  { z0 draws with
    regs :=
      { Regs.reset 8 with
        life := .ready
        claimed := true
        cfgDataLine := 2
        cfgStcpLine := 3
        cfgShcpLine := 4
        cfgPwrLine := if pwr then 5 else 0
        cfgPwrEn := pwr
        cfgWidth := BitVec.ofNat 8 w
        curOp := 6
        seq := pulse .stcp
        k := 1
        lvlData := .low
        lvlShcp := .low
        lvlStcp := .low
        lvlPwr := if pwr then .high else .x }
    dev :=
      { sr := List.replicate w .zero
        q := List.replicate w .zero
        pData := .zero
        pShcp := .zero
        pStcp := .zero
        pPwr := if pwr then .one else .x } }

/-- The same with the data line high, as `setbit 1` leaves it. -/
def dataHigh (s : State) : State :=
  { s with regs := { s.regs with lvlData := .high }, dev := { s.dev with pData := .one } }

/-- The same with a frame in the register (stage 0 first). -/
def holding (sr : List Cell) (s : State) : State := { s with dev := { s.dev with sr := sr } }

/-- The same after a failed INIT: UNCONFIGURED, the lines still claimed. -/
def failedInit (s : State) : State := { s with regs := { s.regs with life := .unconfigured } }

/-- The same after a RELEASE: RELEASED, nothing claimed. -/
def releasedState (s : State) : State := { s with regs := { s.regs with life := .released, claimed := false } }

/-- A property of the next state, false of a stop. -/
def after (o : Host.Outcome State Fault Refusal) (p : State → Bool) : Bool :=
  match o with
  | .next t => p t
  | _ => false

/-- The header `h` and payload `p` on the command port. -/
def present (h : Header) (p : Payload) (s : State) : State :=
  { s with port := { s.port with cmdValid := true, cmdHdr := h, cmdFrame := p } }

/-! ### Well-formedness -/

/-- The one check: a payload on wires that do not exist is ill-formed (30_encoding R100). -/
theorem test_payload_above_bus_refused : (Instr.loadFrame 4 0x100).wellFormed 4 = false := by decide +kernel

theorem test_payload_on_bus_well_formed : (Instr.loadFrame 4 0xFF).wellFormed 4 = true := by decide +kernel

/-! ### Decoding, the words written out from 30_encoding R101 -/

/-- Reserved, PWR_LINE 5, SHCP_LINE 4, STCP_LINE 3, DATA_LINE 2, WIDTH 4, WARN 1, PWR_EN 1, BSYM 0, OP 1. -/
theorem test_decode_init :
    decode 0b0000000000000000_00000101_00000100_00000011_00000010_00000100_1_1_00_0001 0 =
      .ok (.init true true 4 2 3 4 5) := by decide

theorem test_decode_setBit :
    decode 0b0000000000000000_00000000_00000000_00000000_00000000_00000000_0_0_11_0010 0 =
      .ok (.setBit 0b11) := by decide

theorem test_decode_shift :
    decode 0b0000000000000000_00000000_00000000_00000000_00000000_00000000_0_0_00_0011 0 = .ok .shift := by decide

theorem test_decode_clearData :
    decode 0b0000000000000000_00000000_00000000_00000000_00000000_00000000_0_0_00_0100 0 = .ok .clearData := by
  decide

theorem test_decode_loadFrame :
    decode 0b0000000000000000_00000000_00000000_00000000_00000000_00000100_0_0_00_0101 0b01_01_00_01 =
      .ok (.loadFrame 4 0x51) := by decide +kernel

theorem test_decode_store :
    decode 0b0000000000000000_00000000_00000000_00000000_00000000_00000000_0_0_00_0110 0 = .ok .store := by decide

theorem test_decode_clear :
    decode 0b0000000000000000_00000000_00000000_00000000_00000000_00000000_0_0_00_0111 0 = .ok .clear := by decide

theorem test_decode_release :
    decode 0b0000000000000000_00000000_00000000_00000000_00000000_00000000_0_0_00_1000 0 = .ok .release := by decide

/-- 2.2 row 16: INIT with bit 4 set; 2.7 row 10: RELEASE with a reserved bit set (R111). -/
theorem test_decode_unused_bits :
    decode 0x0000_0004_0302_0411 0 = .error (.unusedFieldNotZero 1) ∧
    decode 0x0001_0000_0000_0008 0 = .error (.unusedFieldNotZero 8) ∧
    decode 0x0000_0000_0000_0009 0 = .error (.illegalOpcode 9) := by decide

/-- No header fits two rows of the opcode map: two rows differ in a bit that both masks hold (R110). -/
theorem test_rows_disjoint :
    opcodeTable.Pairwise fun a b => a.pattern &&& (a.mask &&& b.mask) ≠ b.pattern &&& (a.mask &&& b.mask) := by
  decide

/-- A table word is the header with the payload above it. -/
theorem test_decodeTableWord :
    decodeTableWord 64 0x0000_0000_0000_0012 = some (.setBit 1) ∧
    decodeTableWord 574 (0x405 + 0x51 * 2 ^ 64) = some (.loadFrame 4 0x51) ∧
    decodeTableWord 64 0x0000_0000_0000_0009 = none := by decide +kernel

/-- A placed command is the one the next step takes, from reset on. -/
theorem test_withFetchWord :
    fetchCommand (State.reset.withFetchWord 64 0x0000_0004_0302_0401) = .ok (.init false false 4 2 3 4 0) ∧
    (State.reset.withFetchWord 64 8).cmdReady = true ∧ (State.reset.withFetchWord 64 8).port.cmdValid = true := by
  decide

/-! ### INIT -/

/-- 2.2 row 1: STATUS, CFGW and the transactions of a healthy INIT. -/
theorem test_init_healthy :
    after (step (present 0x0000_0004_0302_0401 0 (z0 (oks 6)))) (fun t =>
      t.regs.statusWord == 0x8004_0009 && t.regs.cfgWord == 0x0004_0302 &&
      t.trace.map Prod.fst == [.configure .data, .configure .stcp, .configure .shcp,
        .write .stcp false, .write .shcp false, .write .data false]) = true := by decide +kernel

/-- 2.2 row 11: ERR at transaction 3. -/
theorem test_init_err :
    after (step (present 0x0000_0004_0302_0401 0 (z0 (errAt 3)))) (fun t =>
      t.regs.statusWord == 0xAA04_0038 && t.trace.length == 4) = true := by decide +kernel

/-! ### SET_BIT -/

/-- E2 row 1. -/
theorem test_setBit_one :
    after (exec (.setBit 0b01) (s0 4 false (oks 1))) (fun t =>
      t.regs.statusWord == 0x8104_0009 && t.dev.pData == .one && t.trace == [(.write .data true, .ok)]) = true := by
  decide

/-- E2 row 2: an invalid symbol with the data line high. -/
theorem test_setBit_invalid :
    after (exec (.setBit 0b10) (dataHigh (s0 4 false (oks 1)))) (fun t =>
      t.regs.statusWord == 0x8104_0029 && t.dev.pData == .one && t.trace == []) = true := by decide

/-! ### SHIFT -/

/-- 2.3 row 4: the register `[1,0,0,0]` with the data line still high. -/
theorem test_shift :
    after (exec .shift (holding [.one, .zero, .zero, .zero] (dataHigh (s0 4 false (oks 2))))) (fun t =>
      t.dev.srv 4 == cellsOf [false, false, true, true] && t.dev.out 4 == cellsOf (zeros 4)) = true := by decide

/-- 2.3 row 11: ERR at the falling edge. -/
theorem test_shift_err :
    after (exec .shift (dataHigh (s0 4 false (errAt 1)))) (fun t =>
      t.regs.statusWord == 0x8904_0039 && t.dev.sr == [.x, .x, .x, .x] && t.trace.length == 2) = true := by decide

/-! ### CLEAR_DATA -/

/-- 2.3 row 5. -/
theorem test_clearData :
    after (exec .clearData (dataHigh (s0 4 false (oks 1)))) (fun t =>
      t.regs.statusWord == 0x8004_0009 && t.dev.pData == .zero) = true := by decide

/-- 2.3 row 12. -/
theorem test_clearData_err :
    after (exec .clearData (s0 4 false (errAt 0))) (fun t =>
      t.regs.statusWord == 0x8204_0039 && t.dev.pData == .x && t.dev.sr == List.replicate 4 .zero) = true := by decide

/-! ### LOAD_FRAME -/

/-- 2.4 row 6: a symbol beyond `W` is not read. -/
theorem test_loadFrame :
    after (exec (.loadFrame 4 0x241) (s0 4 false (oks 16))) (fun t =>
      t.regs.statusWord == 0x8004_0009 && t.dev.srv 4 == cellsOf [true, false, false, true] &&
      t.dev.out 4 == cellsOf (zeros 4) && t.trace.length == 16) = true := by decide +kernel

/-- 2.4 row 9: ERR at the last write of element 0. -/
theorem test_loadFrame_err :
    after (exec (.loadFrame 4 0x51) (s0 4 false (errAt 3))) (fun t =>
      t.regs.statusWord == 0x8204_0039 && t.dev.srv 4 == cellsOf [false, false, false, true] &&
      t.trace.length == 4) = true := by decide +kernel

/-! ### STORE -/

/-- 2.5 row 1: the register holds 0110. -/
theorem test_store :
    after (exec .store (holding [.zero, .one, .one, .zero] (s0 4 false (oks 2)))) (fun t =>
      t.regs.statusWord == 0x8004_0009 && t.dev.out 4 == cellsOf [false, true, true, false]) = true := by decide

/-- 2.5 row 3: the falling edge fails after the copy. -/
theorem test_store_err :
    after (exec .store (s0 4 false (errAt 1))) (fun t =>
      t.regs.statusWord == 0xA004_0039 && t.dev.q == List.replicate 4 .x &&
      t.dev.sr == List.replicate 4 .zero) = true := by decide

/-! ### CLEAR -/

/-- 2.6 row 9: the power strategy with the data line high. -/
theorem test_clear_power :
    after (exec .clear (dataHigh (s0 4 true (oks 5)))) (fun t =>
      t.regs.statusWord == 0x4004_0109 && t.dev.srv 4 == cellsOf (zeros 4) && t.trace.length == 5) = true := by decide

/-- 2.6 row 8: ERR at transaction 6 of the zero strategy. -/
theorem test_clear_zeros_err :
    after (exec .clear (holding (List.replicate 4 .one) (s0 4 false (errAt 6)))) (fun t =>
      t.regs.statusWord == 0x8804_0039 && t.dev.sr == List.replicate 4 .x && t.trace.length == 7) = true := by decide

/-! ### RELEASE -/

/-- 2.7 row 5: ERR in the clear phase; the lines are released all the same. -/
theorem test_release_clear_err :
    after (exec .release (s0 2 false (errAt 2))) (fun t =>
      t.regs.statusWord == 0xFF02_0032 && t.trace == [(.write .data false, .ok), (.write .shcp true, .ok),
        (.write .shcp false, .err), (.releaseAll, .ok)]) = true := by decide

/-- 2.7 row 8: `ReleaseAll` itself fails. -/
theorem test_release_releaseAll_err :
    after (exec .release (s0 2 false (errAt 8))) (fun t =>
      t.regs.statusWord == 0xAA02_0039 && t.trace.length == 9) = true := by decide

/-! ### Encoder, device, host -/

/-- The assembler's own headers (P1, P2, P3) and payload (E4). -/
theorem test_encode :
    encode (.init true false 3 2 3 4 5) = (0x0000_0504_0302_0341, 0) ∧
    encode (.init false false 2 7 8 9 0) = (0x0000_0009_0807_0201, 0) ∧
    encode (loadInstr [true, false, true, true]) = (0x0000_0000_0000_0405, 0x51) := by decide +kernel

/-- Source text in the assembler's syntax: P2's first line with `warn`, E4's load, P5's raw line. -/
theorem test_assemble_text :
    assembleText ("INIT data=2, stcp=3, shcp=4, pwr=5, width=3, warn ; boot\nload 1011\n" ++
        ".cmd 0x0000_0000_0000_0405, frame=0xC4") =
      some [(0x0000_0504_0302_03C1, 0), (0x0000_0000_0000_0405, 0x51), (0x0000_0000_0000_0405, 0xC4)] := by
  decide +kernel

/-- 2.9 rows 4, 5 and 9: an unknown clock, unknown data, an unknown power line. -/
theorem test_device_unknown_levels :
    (Device.transact .hold false (.write .shcp false) .ok
      { (s0 2 false []).dev with pShcp := .x }).sr = [.x, .x] ∧
    (Device.transact .hold false (.write .shcp true) .ok
      { (s0 2 false []).dev with pData := .x }).sr = [.x, .zero] ∧
    (Device.transact .hold true (.write .pwr true) .ok
      { (s0 2 true []).dev with pPwr := .x }).sr = [.x, .x] := by decide

/-- 2.10: `skipAcross` at width 5; E7: `barWave` at width 3. -/
theorem test_pattern_frames :
    skipFrames 5 = [[true, false, false, false, false], [true, false, false, false, false],
      [false, false, true, false, false], [false, false, true, false, false],
      [false, false, false, false, true]] ∧
    risingFrames 3 ++ fallingFrames 3 = [[true, false, false], [true, true, false], [true, true, true],
      [false, true, true], [false, false, true], [false, false, false]] := by decide

/-- E5: what `fillBar` with persist, left to right, width 8, loads and how many commands it gives. -/
theorem test_fillBar_stream :
    (patternCmds 8 (.fillBar true) .leftToRight 0).length = 30 ∧
    ((patternCmds 8 (.fillBar true) .leftToRight 0).filterMap fun c =>
      if c.1 = 0x805 then some c.2 else none) =
      [0x4000, 0x5000, 0x5400, 0x5500, 0x5540, 0x5550, 0x5554, 0x5555] := by decide +kernel

/-- 2.11: SHIFT with a backend one cycle late: after the edges e0 to e4 the response stands. -/
theorem test_shift_late_backend :
    (clockRun (cmdInputs 3 0 :: [none, some .ok, none, some .ok].map rspInputs)
      (s0 4 true [])).regs.doneValid = true ∧
    (clockRun (cmdInputs 3 0 :: [none, some .ok, none].map rspInputs) (s0 4 true [])).regs.request =
      ⟨true, 0b01, 0x04, false⟩ := by decide

/-! ### Witnesses: for each obligation with hypotheses, a state and operands that meet all of them, its clauses at
the ends of their ranges -/

theorem witness_EncodedCommandDecodes :
    (Instr.loadFrame 255 0x3).wellFormed 1 = true ∧ (Instr.setBit 0b11).wellFormed 1 = true ∧
    (Instr.init true true 255 255 254 253 252).wellFormed 1 = true := by decide +kernel

theorem witness_DecodedHeaderReencodes :
    decode 0x0000_0000_0000_FF05 0x3 = .ok (.loadFrame 255 0x3) ∧
    decode 0x0000_FFFF_FFFF_FFC1 0 = .ok (.init true true 255 255 255 255 255) := by decide +kernel

/-- Both ways a header is illegal. -/
theorem witness_IllegalHeaders :
    opOf 0x9 ∈ [0x0#4, 0x9#4, 0xA#4, 0xB#4, 0xC#4, 0xD#4, 0xE#4, 0xF#4] ∧
    (∀ row ∈ opcodeTable, opOf row.pattern = opOf 0x112 → (0x112 : Header) &&& row.mask ≠ row.pattern) := by decide

theorem witness_StepRunsPresentedCommand :
    (present 0x3 0 (z0 [])).cmdReady = true ∧ (present 0x3 0 (z0 [])).port.cmdValid = true ∧
    fetchCommand (present 0x3 0 (z0 [])) = .ok .shift := by decide

theorem witness_IllegalHeaderAnswersIllegalCmd :
    (present 0x9 0 (z0 [])).cmdReady = true ∧ (present 0x9 0 (z0 [])).port.cmdValid = true ∧
    fetchCommand (present 0x9 0 (z0 [])) = .error (.illegalOpcode 9) := by decide

/-- INIT in READY; SHIFT outside it; and, of the other clause, INIT and RELEASE outside READY and SHIFT in it. -/
theorem witness_AdmissionByLifecycle :
    (s0 4 false []).cmdReady = true ∧ (z0 []).cmdReady = true ∧
    (rowOf (.init false false 4 2 3 4 0) = initRow ∧ (s0 4 false []).regs.life = .ready) ∧
    (rowOf .shift ≠ initRow ∧ rowOf .shift ≠ releaseRow ∧ (z0 []).regs.life ≠ .ready) ∧
    rowOf .release = releaseRow ∧ (s0 4 false []).regs.life = .ready := by decide

/-- The check passes at widths 1 and WMAX and with an unused PWR_LINE equal to DATA; it fails at 0 and WMAX + 1. -/
theorem witness_InitChecksThenPrepares :
    (z0 []).cmdReady = true ∧ (z0 []).regs.life ≠ .ready ∧
    configCheck (z0 []).params.wmax false 1 2 3 4 2 = .ok ∧ configCheck (z0 []).params.wmax true 8 2 3 4 5 = .ok ∧
    configCheck (z0 []).params.wmax false 0 2 3 4 0 = .configError ∧
    configCheck (z0 []).params.wmax false 9 2 3 4 0 = .configError ∧
    configCheck (z0 []).params.wmax false 4 2 2 4 0 = .configError ∧
    configCheck (z0 []).params.wmax true 4 2 3 4 2 = .configError := by decide

theorem witness_SetBitRejectsInvalidSymbol :
    ReadyForCommand (s0 4 false []) ∧ (0b10#2 = 0b10#2 ∨ 0b10#2 = 0b11#2) ∧ (0b11#2 = 0b10#2 ∨ 0b11#2 = 0b11#2) :=
  ⟨⟨rfl, rfl⟩, by decide, by decide⟩

/-- The last symbol inside the frame invalid; a wrong length; two payloads that differ beyond the frame. -/
theorem witness_LoadFrameValidatesFirst :
    ReadyForCommand (s0 4 false []) ∧ (3 : BitVec 8) ≠ (s0 4 false []).regs.cfgWidth ∧
    ((4 : BitVec 8) = (s0 4 false []).regs.cfgWidth ∧ 3 < (s0 4 false []).regs.width ∧
      payloadSym 0xC4 3 = 0b11#2) ∧
    (∀ i, i < (s0 4 false []).regs.width → payloadSym 0x241 i = payloadSym 0x41 i) :=
  ⟨⟨rfl, rfl⟩, by decide, by decide +kernel, by decide +kernel⟩

theorem witness_InitCompletes :
    ((z0 (oks 6)).cmdReady = true ∧ (z0 (oks 6)).regs.life ≠ .ready ∧ 1 ≤ (1 : BitVec 8).toNat ∧
      (1 : BitVec 8).toNat ≤ (z0 (oks 6)).params.wmax ∧ (2 : LineId) ≠ 3 ∧ (2 : LineId) ≠ 4 ∧ (3 : LineId) ≠ 4 ∧
      (false = true → (2 : LineId) ≠ 2 ∧ (2 : LineId) ≠ 3 ∧ (2 : LineId) ≠ 4) ∧
      Healthy (if false then 8 else 6) (z0 (oks 6))) ∧
    ((8 : BitVec 8).toNat ≤ (z0 (oks 8)).params.wmax ∧
      (true = true → (5 : LineId) ≠ 2 ∧ (5 : LineId) ≠ 3 ∧ (5 : LineId) ≠ 4) ∧
      Healthy (if true then 8 else 6) (z0 (oks 8))) := by
  refine ⟨⟨?_, ?_, ?_, ?_, ?_, ?_, ?_, ?_, rfl⟩, ?_, ?_, rfl⟩ <;> decide

theorem witness_SetBitCompletes : ReadyForCommand (s0 1 false (oks 1)) ∧ Healthy 1 (s0 1 false (oks 1)) :=
  ⟨⟨rfl, rfl⟩, rfl⟩

/-- With the device's clause, without a power line and with one. -/
theorem witness_ShiftCompletes :
    ReadyForCommand (s0 4 true (oks 2)) ∧ Healthy 2 (s0 4 true (oks 2)) ∧ (s0 4 true (oks 2)).dev.pShcp = .zero ∧
    ((s0 4 true (oks 2)).regs.cfgPwrEn = true → (s0 4 true (oks 2)).dev.pPwr = .one) ∧
    ReadyForCommand (s0 4 false (oks 2)) ∧ Healthy 2 (s0 4 false (oks 2)) ∧
    (s0 4 false (oks 2)).regs.cfgPwrEn = false :=
  ⟨⟨rfl, rfl⟩, rfl, rfl, fun _ => rfl, ⟨rfl, rfl⟩, rfl, rfl⟩

theorem witness_ClearDataCompletes : ReadyForCommand (s0 4 false (oks 1)) ∧ Healthy 1 (s0 4 false (oks 1)) :=
  ⟨⟨rfl, rfl⟩, rfl⟩

/-- The payload of E4; beyond the frame it may carry anything. -/
theorem carries_E4 : CarriesFrame [true, false, true, true] 0x51 ∧ CarriesFrame [true, false] 0x51 := by
  unfold CarriesFrame
  decide +kernel

theorem witness_LoadFrameCompletes :
    ReadyForCommand (s0 4 true (oks 16)) ∧ 1 ≤ (s0 4 true (oks 16)).regs.width ∧
    [true, false, true, true].length = (s0 4 true (oks 16)).regs.width ∧
    CarriesFrame [true, false, true, true] 0x51 ∧
    Healthy (4 * (s0 4 true (oks 16)).regs.width) (s0 4 true (oks 16)) ∧
    (s0 4 true (oks 16)).dev.sr.length = (s0 4 true (oks 16)).regs.width ∧
    (s0 4 true (oks 16)).dev.pShcp = .zero ∧
    ((s0 4 true (oks 16)).regs.cfgPwrEn = true → (s0 4 true (oks 16)).dev.pPwr = .one) :=
  ⟨⟨rfl, rfl⟩, by decide, rfl, carries_E4.1, rfl, rfl, rfl, fun _ => rfl⟩

theorem witness_StoreCompletes :
    ReadyForCommand (s0 4 false (oks 2)) ∧ Healthy 2 (s0 4 false (oks 2)) ∧ (s0 4 false (oks 2)).dev.pStcp = .zero :=
  ⟨⟨rfl, rfl⟩, rfl, rfl⟩

theorem witness_ClearByZerosCompletes :
    ReadyForCommand (s0 1 false (oks 4)) ∧ (s0 1 false (oks 4)).regs.cfgPwrEn = false ∧
    1 ≤ (s0 1 false (oks 4)).regs.width ∧
    Healthy (4 * (s0 1 false (oks 4)).regs.width) (s0 1 false (oks 4)) ∧
    (s0 1 false (oks 4)).dev.sr.length = (s0 1 false (oks 4)).regs.width ∧
    (s0 1 false (oks 4)).dev.pShcp = .zero :=
  ⟨⟨rfl, rfl⟩, rfl, by decide, rfl, rfl, rfl⟩

theorem witness_ClearByPowerCompletes :
    ReadyForCommand (s0 4 true (oks 5)) ∧ (s0 4 true (oks 5)).regs.cfgPwrEn = true ∧
    Healthy 5 (s0 4 true (oks 5)) ∧ (s0 4 true (oks 5)).dev.pShcp = .zero :=
  ⟨⟨rfl, rfl⟩, rfl, rfl, rfl⟩

theorem witness_ReleaseFromReadyCompletes :
    ReadyForCommand (s0 2 false (oks 9)) ∧
    Healthy (if (s0 2 false (oks 9)).regs.cfgPwrEn then 6 else 4 * (s0 2 false (oks 9)).regs.width + 1)
      (s0 2 false (oks 9)) ∧
    ReadyForCommand (s0 2 true (oks 6)) ∧
    Healthy (if (s0 2 true (oks 6)).regs.cfgPwrEn then 6 else 4 * (s0 2 true (oks 6)).regs.width + 1)
      (s0 2 true (oks 6)) :=
  ⟨⟨rfl, rfl⟩, rfl, ⟨rfl, rfl⟩, rfl⟩

/-- After a failed INIT, and with nothing claimed. -/
theorem witness_ReleaseOutsideReadyCompletes :
    ((failedInit (s0 4 false (oks 1))).cmdReady = true ∧ (failedInit (s0 4 false (oks 1))).regs.life ≠ .ready ∧
      (failedInit (s0 4 false (oks 1))).regs.claimed = true ∧ Healthy 1 (failedInit (s0 4 false (oks 1)))) ∧
    ((releasedState (s0 4 false [])).cmdReady = true ∧ (releasedState (s0 4 false [])).regs.life ≠ .ready ∧
      (releasedState (s0 4 false [])).regs.claimed = false) :=
  ⟨⟨rfl, by decide, rfl, rfl⟩, rfl, by decide, rfl⟩

/-- Every presented command has a next state, so each of the seven frames has an instance, whatever the draws. -/
theorem witness_frames (i : Instr) (s : State) (h : s.cmdReady = true) : ∃ t, exec i s = .next t := by
  cases i <;> exact ⟨_, if_pos h⟩

/-- INIT with and without a power line; SET_BIT and CLEAR_DATA; the others in READY. -/
theorem witness_InitFrame :
    (z0 []).cmdReady = true ∧ (∃ t, exec (.init false false 4 2 3 4 0) (z0 []) = .next t) ∧
    ∃ t, exec (.init true false 4 2 3 4 5) (z0 []) = .next t :=
  ⟨rfl, witness_frames _ _ rfl, witness_frames _ _ rfl⟩

theorem witness_DataLineCommandsFrame :
    (s0 4 false []).cmdReady = true ∧ (∃ t, exec (.setBit 1) (s0 4 false []) = .next t) ∧
    ∃ t, exec .clearData (s0 4 false []) = .next t :=
  ⟨rfl, witness_frames _ _ rfl, witness_frames _ _ rfl⟩

theorem witness_ShiftFrame : (s0 4 true []).cmdReady = true ∧ ∃ t, exec .shift (s0 4 true []) = .next t :=
  ⟨rfl, witness_frames _ _ rfl⟩

theorem witness_LoadFrameFrame :
    (s0 4 false []).cmdReady = true ∧ ∃ t, exec (.loadFrame 4 0x51) (s0 4 false []) = .next t :=
  ⟨rfl, witness_frames _ _ rfl⟩

theorem witness_StoreFrame : (s0 4 false []).cmdReady = true ∧ ∃ t, exec .store (s0 4 false []) = .next t :=
  ⟨rfl, witness_frames _ _ rfl⟩

/-- Without a power line, and with one under either effect on the outputs. -/
theorem witness_ClearFrame :
    (s0 4 false []).cmdReady = true ∧ (∃ t, exec .clear (s0 4 false []) = .next t) ∧
    (s0 4 false []).regs.cfgPwrEn = false ∧
    (s0 4 true []).cmdReady = true ∧ (∃ t, exec .clear (s0 4 true []) = .next t) ∧
    (s0 4 true []).params.pwrQ = .hold :=
  ⟨rfl, witness_frames _ _ rfl, rfl, rfl, witness_frames _ _ rfl, rfl⟩

theorem witness_ReleaseFrame : (s0 4 false []).cmdReady = true ∧ ∃ t, exec .release (s0 4 false []) = .next t :=
  ⟨rfl, witness_frames _ _ rfl⟩

/-- One more edge in reset. -/
def inReset (s : State) : State := { s with port := { s.port with rstLow := 1 } }

/-- A LOAD_FRAME waiting at `K = 7` (2.12 row 3). -/
def loading (s : State) : State :=
  { s with regs := { s.regs with busy := true, curOp := 5, seq := loadSeq (zeros 4), k := 7 } }

/-- An INIT waiting at its first transaction. -/
def initialising (s : State) : State :=
  { s with regs := { s.regs with life := .unconfigured, busy := true, curOp := 1, seq := initSeq false, k := 0 } }

/-- A RELEASE waiting in its clear phase. -/
def releasing (s : State) : State :=
  { s with regs := { s.regs with busy := true, curOp := 8, seq := powerSeq ++ [.releaseAll], k := 2 } }

theorem witness_ResetEdgeValues :
    0 < (inReset (s0 4 true [])).port.rstLow ∧ (inReset (s0 4 true [])).port.rstLow = 1 := by decide

theorem witness_ResetAndTheDevice :
    (0 < (inReset (s0 4 true [])).port.rstLow ∧ (inReset (s0 4 true [])).regs.busy = false) ∧
    (0 < (inReset (loading (s0 4 true []))).port.rstLow ∧ (inReset (loading (s0 4 true []))).regs.busy = true) := by
  decide

/-- A request of each kind is outstanding. -/
theorem witness_RequestOutputsFollowSeq :
    ((initialising (s0 4 false [])).regs.busy = true ∧
      (initialising (s0 4 false [])).regs.seq[(initialising (s0 4 false [])).regs.k]? = some (.configure .data)) ∧
    ((loading (s0 4 false [])).regs.busy = true ∧
      (loading (s0 4 false [])).regs.seq[(loading (s0 4 false [])).regs.k]? = some (.write .data false)) ∧
    (Regs.outstanding { (releasing (s0 4 true [])).regs with k := 5 } = some .releaseAll) := by decide

theorem witness_AnswerUpdatesShadows :
    (releasing (s0 4 true [])).regs.busy = true ∧
    (releasing (s0 4 true [])).regs.seq[(releasing (s0 4 true [])).regs.k]? = some (.write .pwr true) := by decide

/-- In the middle of `SEQ`, and at its end. -/
theorem witness_OkAnswerAdvancesOrResponds :
    ((loading (s0 4 false [])).regs.busy = true ∧
      (loading (s0 4 false [])).regs.seq[(loading (s0 4 false [])).regs.k]? = some (.write .data false) ∧
      (loading (s0 4 false [])).regs.k + 1 < (loading (s0 4 false [])).regs.seq.length) ∧
    ((initialising (s0 4 false [])).regs.seq[5]? = some (.write .data false) ∧
      (initialising (s0 4 false [])).regs.seq.length = 5 + 1) := by decide

/-- A bit command, INIT, and RELEASE at its `ReleaseAll`; and transactions of each clock. -/
theorem witness_BackendErrorAborts :
    ((loading (s0 4 false [])).regs.busy = true ∧
      (loading (s0 4 false [])).regs.seq[(loading (s0 4 false [])).regs.k]? = some (.write .data false) ∧
      (loading (s0 4 false [])).regs.curOp ≠ 8) ∧
    ((initialising (s0 4 false [])).regs.busy = true ∧
      (initialising (s0 4 false [])).regs.seq[(initialising (s0 4 false [])).regs.k]? = some (.configure .data) ∧
      (initialising (s0 4 false [])).regs.curOp = 1) ∧
    ((releasing (s0 4 true [])).regs.curOp = 8 ∧ (releasing (s0 4 true [])).regs.seq[5]? = some .releaseAll) ∧
    ((loading (s0 4 false [])).regs.seq[5]? = some (.write .shcp true) ∧
      (s0 4 false []).regs.seq[1]? = some (.write .stcp false) ∧
      (initialising (s0 4 false [])).regs.seq[1]? = some (.configure .stcp)) := by
  decide

/-- A failed write of the shift clock: SR unknown, Q as it was; with the power line low, SR clear (20_memory R90,
60_exceptions R227). -/
theorem test_failed_shift_clock :
    Device.transact .hold false (.write .shcp true) .err ⟨[.one, .zero], [.one, .one], .one, .zero, .zero, .x⟩ =
      ⟨[.x, .x], [.one, .one], .one, .x, .zero, .x⟩ ∧
    Device.transact .hold true (.write .shcp true) .err ⟨[.zero, .zero], [.one, .one], .zero, .zero, .zero, .zero⟩ =
      ⟨[.zero, .zero], [.one, .one], .zero, .x, .zero, .zero⟩ := by decide

theorem witness_ReleaseGoesOnAfterClearError :
    (releasing (s0 4 true [])).regs.busy = true ∧ (releasing (s0 4 true [])).regs.curOp = 8 ∧
    (releasing (s0 4 true [])).regs.seq = powerSeq ++ [.releaseAll] ∧
    (releasing (s0 4 true [])).regs.seq[(releasing (s0 4 true [])).regs.k]? = some (.write .pwr true) ∧
    Txn.write .pwr true ≠ .releaseAll := by decide

/-- The first transaction fails, and the last one. -/
theorem witness_InitAbortsOnBackendError :
    ((z0 (errAt 0)).cmdReady = true ∧ (z0 (errAt 0)).regs.life ≠ .ready ∧ 1 ≤ (4 : BitVec 8).toNat ∧
      (4 : BitVec 8).toNat ≤ (z0 (errAt 0)).params.wmax ∧ (2 : LineId) ≠ 3 ∧ (2 : LineId) ≠ 4 ∧ (3 : LineId) ≠ 4 ∧
      (true = true → (5 : LineId) ≠ 2 ∧ (5 : LineId) ≠ 3 ∧ (5 : LineId) ≠ 4) ∧
      (initSeq true)[0]? = some (.configure .data) ∧
      BackendAnswers (List.replicate 0 .ok ++ [.err]) (z0 (errAt 0))) ∧
    ((initSeq true)[7]? = some (.write .pwr true) ∧
      BackendAnswers (List.replicate 7 .ok ++ [.err]) (z0 (errAt 7))) := by
  refine ⟨⟨rfl, ?_, ?_, ?_, ?_, ?_, ?_, ?_, rfl, rfl⟩, rfl, rfl⟩ <;> decide

/-- A host with the given plan and stage, awaiting a response or not. -/
def hosting (stage : HostStage) (awaiting : Bool) (plan : List HostAct) (s : State) : State :=
  { s with host := { HostAgent.reset with stage := stage, awaiting := awaiting, plan := plan } }

/-- The response that stands. -/
def responding (code : Status) (s : State) : State :=
  { s with regs := { s.regs with doneValid := true, doneStatus := code, lastStatus := code } }

/-- The same after a command with this opcode. -/
def ranOp (op : BitVec 4) (s : State) : State := { s with regs := { s.regs with curOp := op } }

/-- The host reads `LAST_STATUS` and lets edges pass. -/
def readingStatus (misses : List Nat) (s : State) : State :=
  { s with host := { s.host with readsStatus := true, misses := misses } }

/-- The invariant holds between commands, and in each of the three shapes of a command in flight. -/
theorem witness_Inv :
    Inv (s0 4 true []) ∧ Inv (loading (s0 4 false [])) ∧ Inv (initialising (s0 4 false [])) ∧
    Inv (releasing (s0 4 true [])) := by
  refine ⟨⟨?_, ?_, ?_, ?_, ?_, ?_, ?_, ?_, nofun⟩, ⟨?_, ?_, ?_, ?_, ?_, ?_, ?_, ?_, nofun⟩,
    ⟨?_, ?_, ?_, ?_, ?_, ?_, ?_, ?_, nofun⟩, ⟨?_, ?_, ?_, ?_, ?_, ?_, ?_,
      fun _ => ⟨by decide, .inr (.inr ⟨rfl, rfl, powerSeq, rfl, by decide⟩)⟩, nofun⟩⟩ <;>
    first
    | decide
    | (unfold Regs.Configured; decide)
    | (intro _; refine ⟨by decide, .inr (.inl ?_)⟩; decide)
    | (intro _; refine ⟨by decide, .inl ?_⟩; unfold Regs.Configured; decide)

/-- The INIT of 95_test_vectors P1, with a power line or without. -/
def lines (pwrEn : Bool) : HostConfig := ⟨2, 3, 4, if pwrEn then some 5 else none, 4, false⟩

/-- A host that owes a release or not, with lines that a reset left claimed; it has issued an INIT or not. -/
def owing (owes inited : Bool) (cut : List HostConfig) (s : State) : State :=
  { s with host := { s.host with owes := owes, inited := inited, cut := cut } }

/-- … and while the host awaits the commands of its release duty: a RELEASE on the port, or answered, or an INIT. -/
theorem witness_Inv_releasing :
    Inv (present 0x8 0 (hosting .releasing true [] (s0 4 true []))) ∧
    Inv (hosting .releasing true [] (responding .ok (ranOp 8 (releasedState (s0 4 true []))))) ∧
    Inv (present 0x0000_0004_0302_0401 0 (owing true true [lines false] (hosting .releasing true [] (z0 [])))) := by
  refine ⟨⟨?_, ?_, ?_, ?_, ?_, ?_, ?_, nofun, fun _ _ => ?_⟩, ⟨?_, ?_, ?_, ?_, ?_, ?_, ?_, nofun, fun _ _ => ?_⟩,
    ⟨?_, ?_, ?_, ?_, ?_, ?_, ?_, nofun, fun _ _ => ?_⟩⟩ <;>
    first
    | decide
    | (unfold Regs.Configured; decide)
    | (unfold ReleaseUnderWay; decide +kernel)

/-- A step from a state of the invariant: STORE accepted, all answers OK. -/
theorem witness_StepKeepsInvariant :
    ∃ t, step (present 0x6 0 (s0 4 false (oks 2))) = .next t ∧ t.regs.lastStatus = .ok := ⟨_, rfl, rfl⟩

/-- A passing INIT changes the configuration. -/
theorem witness_ConfigChangesOnlyByInit :
    (present 0x0000_0004_0302_0401 0 (z0 (oks 6))).port.rstLow = 0 ∧
    ∃ t, step (present 0x0000_0004_0302_0401 0 (z0 (oks 6))) = .next t ∧
      ¬ SameConfig (z0 (oks 6)).regs t.regs := by
  refine ⟨rfl, _, rfl, ?_⟩
  unfold SameConfig
  decide

/-- Each of the three changes of the lifecycle, by a step. -/
theorem witness_LifecycleTransitions :
    after (step (present 0x0000_0004_0302_0401 0 (z0 (oks 6)))) (fun t => t.regs.life == .ready) = true ∧
    after (step (present 0x0000_0004_0302_0401 0 (releasedState (s0 4 false (errAt 0)))))
      (fun t => t.regs.life == .unconfigured) = true ∧
    after (step (present 0x8 0 (s0 2 false (oks 9)))) (fun t => t.regs.life == .released) = true := by decide

/-- STORE and RELEASE accepted, an error among their answers; a load and a release that go on. -/
theorem witness_TraceFollowsSeq :
    ((s0 4 false (errAt 1)).cmdReady = true ∧ rowOf .store ≠ releaseRow ∧
      ∃ t, exec .store (s0 4 false (errAt 1)) = .next t ∧ t.trace.length = 2) ∧
    ((s0 2 false (errAt 2)).cmdReady = true ∧ ∃ t, exec .release (s0 2 false (errAt 2)) = .next t) ∧
    ((loading (s0 4 false (errAt 1))).port.rstLow = 0 ∧ (loading (s0 4 false (errAt 1))).regs.busy = true ∧
      (loading (s0 4 false (errAt 1))).regs.curOp ≠ 8 ∧
      ∃ t, step (loading (s0 4 false (errAt 1))) = .next t ∧ t.trace.length = 2) ∧
    (Inv (releasing (s0 4 true [])) ∧ (releasing (s0 4 true [])).port.rstLow = 0 ∧
      (releasing (s0 4 true [])).regs.busy = true ∧ (releasing (s0 4 true [])).regs.curOp = 8 ∧
      ∃ t, step (releasing (s0 4 true [])) = .next t) :=
  ⟨⟨rfl, by decide, _, rfl, rfl⟩, ⟨rfl, _, rfl⟩, ⟨rfl, rfl, by decide, _, rfl, rfl⟩,
    ⟨witness_Inv.2.2.2, rfl, rfl, rfl, _, rfl⟩⟩

theorem witness_EdgesOfACommand :
    (s0 4 false (oks 2)).cmdReady = true ∧
    ∃ t, exec .store (s0 4 false (oks 2)) = .next t ∧ t.regs.busy = false ∧ t.cycle = 3 := ⟨rfl, _, rfl, rfl, rfl⟩

/-- A step of every kind: reset, a command that waits for its backend, a command accepted, an idle edge. -/
theorem witness_StepIsClockEdges :
    (∃ t, step (inReset (loading (s0 4 false []))) = .next t) ∧
    (∃ t, step (loading (s0 4 false [none])) = .next t) ∧
    (∃ t, step (present 0x6 0 (s0 4 false (oks 2))) = .next t) ∧ ∃ t, step (s0 4 false []) = .next t :=
  ⟨⟨_, rfl⟩, ⟨_, rfl⟩, ⟨_, rfl⟩, ⟨_, rfl⟩⟩

theorem witness_HealthyCommandsKeepLines :
    ReadyForCommand (s0 4 true (oks 5)) ∧ LinesKnown (s0 4 true (oks 5)) ∧ rowOf .clear ≠ releaseRow ∧
    ∃ t, exec .clear (s0 4 true (oks 5)) = .next t ∧ t.regs.busy = false ∧ t.regs.lastStatus ≠ .backendIo :=
  ⟨⟨rfl, rfl⟩, ⟨rfl, rfl, fun _ => rfl⟩, by decide, _, rfl, rfl, by decide⟩

/-- A load and then a store, all answers OK. -/
theorem witness_LoadThenStoreShowsFrame :
    ReadyForCommand (s0 4 false (oks 18)) ∧ 1 ≤ (s0 4 false (oks 18)).regs.width ∧
    [true, false, true, true].length = (s0 4 false (oks 18)).regs.width ∧
    CarriesFrame [true, false, true, true] 0x51 ∧ MatchedDevice (s0 4 false (oks 18)) ∧
    LinesKnown (s0 4 false (oks 18)) ∧
    Healthy (4 * (s0 4 false (oks 18)).regs.width) (s0 4 false (oks 18)) ∧
    after (exec (.loadFrame 4 0x51) (s0 4 false (oks 18))) (fun t => t.draws == oks 2) = true :=
  ⟨⟨rfl, rfl⟩, by decide, rfl, carries_E4.1, ⟨rfl, rfl⟩, ⟨rfl, rfl, by decide⟩, rfl, by decide +kernel⟩

/-- A clear and then a store, with each strategy and each effect on the outputs. -/
theorem witness_ClearThenStoreShowsZeros :
    (ReadyForCommand (s0 1 false (oks 6)) ∧ 1 ≤ (s0 1 false (oks 6)).regs.width ∧
      MatchedDevice (s0 1 false (oks 6)) ∧ LinesKnown (s0 1 false (oks 6)) ∧
      Healthy (if (s0 1 false (oks 6)).regs.cfgPwrEn then 5 else 4 * (s0 1 false (oks 6)).regs.width)
        (s0 1 false (oks 6))) ∧
    (ReadyForCommand (s0 4 true (oks 7)) ∧ MatchedDevice (s0 4 true (oks 7)) ∧ LinesKnown (s0 4 true (oks 7)) ∧
      Healthy (if (s0 4 true (oks 7)).regs.cfgPwrEn then 5 else 4 * (s0 4 true (oks 7)).regs.width)
        (s0 4 true (oks 7))) ∧
    after (exec .clear { s0 4 true (oks 7) with params := { (z0 []).params with pwrQ := .unknown } })
      (fun t => t.dev.q == List.replicate 4 .x && t.draws == oks 2) = true :=
  ⟨⟨⟨rfl, rfl⟩, by decide, ⟨rfl, rfl⟩, ⟨rfl, rfl, by decide⟩, rfl⟩,
    ⟨⟨rfl, rfl⟩, ⟨rfl, rfl⟩, ⟨rfl, rfl, fun _ => rfl⟩, rfl⟩, by decide⟩

theorem witness_RawProtocolEqualsLoad :
    ReadyForCommand (s0 2 false (oks 8)) ∧ 1 ≤ (s0 2 false (oks 8)).regs.width ∧
    [true, false].length = (s0 2 false (oks 8)).regs.width ∧ CarriesFrame [true, false] 0x51 ∧
    (s0 2 false (oks 8)).draws = List.replicate (4 * (s0 2 false (oks 8)).regs.width) (some .ok) ++ [] :=
  ⟨⟨rfl, rfl⟩, by decide, rfl, carries_E4.2, rfl⟩

/-- A failed INIT, a failed SHIFT, and a RELEASE whose `ReleaseAll` failed; the answers after each are OK. -/
theorem witness_ReleaseSucceedsAfterError :
    after (exec (.init false false 4 2 3 4 0) (z0 (errAt 3))) (fun t =>
      !t.regs.busy && t.regs.lastStatus == .backendIo && t.draws == oks 40) = true ∧
    after (exec .shift (s0 4 false (errAt 1))) (fun t =>
      !t.regs.busy && t.regs.lastStatus == .backendIo && t.draws == oks 40) = true ∧
    after (exec .release (s0 2 false (errAt 8))) (fun t =>
      !t.regs.busy && t.regs.lastStatus == .backendIo && t.regs.life == .ready) = true := by decide

theorem witness_PatternCommandCounts : (1 ≤ 1) ∧ (patternCmds 1 (.fillBar true) .leftToRight 0).length = 2 := by
  decide +kernel

/-- A whole rendered frame: 16 + 2 + 16 + 2 answers. -/
theorem witness_RenderFrameShowsThenBlanks :
    ReadyForCommand (s0 4 false (oks 36)) ∧ 1 ≤ (s0 4 false (oks 36)).regs.width ∧
    [true, false, false, false].length = (s0 4 false (oks 36)).regs.width ∧ MatchedDevice (s0 4 false (oks 36)) ∧
    LinesKnown (s0 4 false (oks 36)) ∧ (s0 4 false (oks 36)).params.pwrQ = .hold ∧
    Healthy (4 * (s0 4 false (oks 36)).regs.width) (s0 4 false (oks 36)) ∧
    after (exec (loadInstr (orient .leftToRight [true, false, false, false])) (s0 4 false (oks 36)))
      (fun t => t.draws == oks 20) = true :=
  ⟨⟨rfl, rfl⟩, by decide, rfl, ⟨rfl, rfl⟩, ⟨rfl, rfl, by decide⟩, rfl, rfl, by decide +kernel⟩

/-- A host waits while a load is in flight, another command standing on the port; one that reads `LAST_STATUS` waits
likewise and lets an edge pass; a host with an INIT in its plan presents it; one that holds presents nothing; a reset
finds an INIT on the port, or a response awaited. -/
theorem witness_HostWaitsAndHoldsItsCommand :
    (∃ t, step (present 0x6 0 (hosting .running true [] (loading (s0 4 false [none])))) = .next t) ∧
    (hosting .running true [] (loading (s0 4 false [none]))).port.rstLow = 0 ∧
    (hosting .running true [] (loading (s0 4 false [none]))).host.awaiting = true ∧
    (hosting .running true [] (loading (s0 4 false [none]))).host.readsStatus = false ∧
    (hosting .running true [] (loading (s0 4 false [none]))).regs.doneValid = false ∧
    (readingStatus [] (hosting .running true [] (loading (s0 4 false [none])))).host.readsStatus = true ∧
    (readingStatus [] (hosting .running true [] (loading (s0 4 false [none])))).regs.busy = true ∧
    (present 0x6 0 (hosting .running true [] (loading (s0 4 false [none])))).cmdReady = false ∧
    ((readingStatus [1] (hosting .running true [] (s0 4 false []))).cmdReady = true ∧
      (readingStatus [1] (hosting .running true [] (s0 4 false []))).port.cmdValid = false ∧
      (readingStatus [1] (hosting .running true [] (s0 4 false []))).host.awaiting = true ∧
      ∃ t, step (readingStatus [1] (hosting .running true [] (s0 4 false []))) = .next t) ∧
    after (step (hosting .running false [.cmd 0x0000_0004_0302_0401 0] (z0 []))) (fun t => t.port.cmdValid) = true ∧
    after (step (hosting .running false [.hold 1] (z0 []))) (fun t => !t.port.cmdValid) = true ∧
    after (step (inReset (present 0x0000_0004_0302_0401 0 (hosting .running true [] (z0 [])))))
      (fun t => t.host.inited && t.host.awaiting) = true ∧
    after (step (inReset (hosting .running true [] (loading (s0 4 false [])))))
      (fun t => !t.host.inited && !t.host.awaiting) = true :=
  ⟨⟨_, rfl⟩, rfl, rfl, rfl, rfl, rfl, rfl, rfl, ⟨rfl, rfl, rfl, _, rfl⟩, by decide +kernel, by decide, by decide,
    by decide⟩

/-- A host whose program does not begin with INIT boots the block first: INIT, then CLEAR and STORE (70_reset R254;
line assignment and width of 95_test_vectors P1). -/
theorem test_host_boots_first :
    after (step { z0 [] with host := { HostAgent.reset with
        stage := .running, plan := [cmdAct .store], config := ⟨2, 3, 4, none, 4, false⟩ } })
      (fun t => !t.port.cmdValid && t.host.plan ==
        [.cmd 0x0000_0004_0302_0401 0, .cmd 0x7 0, .cmd 0x6 0, .cmd 0x6 0]) = true := by decide +kernel

/-- A host that missed `DONE_VALID` goes by `LAST_STATUS` (R195). -/
theorem test_host_reads_last_status :
    after (step (readingStatus [0] (hosting .running true [.hold 2]
        { s0 4 false [] with regs := { (s0 4 false []).regs with lastStatus := .backendIo } })))
      (fun t => t.port.cmdHdr == 0x8 && t.host.reported == some .backendIo) = true := by decide +kernel

/-- A reset during a hold of a running host: its next command needs an INIT again, with the lines the reset left claimed
(70_reset R254, R262). -/
theorem test_host_boots_after_reset :
    after (step (inReset (owing false true [] (hosting .running false [cmdAct .store] (s0 4 false []))))) (fun t =>
      t.host.owes && t.host.cut == [lines false] &&
        after (step t) (fun u => !u.port.cmdValid && u.host.plan ==
          [.cmd 0x0000_0004_0302_0401 0, .cmd 0x7 0, .cmd 0x6 0, .cmd 0x6 0])) = true := by decide +kernel

/-- A reset that loses the response of a load: the release duty issues INIT with the same lines, then RELEASE (70_reset
R252, R262). -/
theorem test_host_releases_after_reset :
    after (step (inReset (owing true true [] (hosting .running true [.hold 1] (loading (s0 4 false [])))))) (fun t =>
      t.host.stage == .releasing && after (step t) (fun u =>
        u.port.cmdHdr == 0x0000_0004_0302_0401 && after (step { u with draws := oks 6 }) (fun v =>
          v.regs.life == .ready && after (step v) (fun w => w.host.cut == [] && w.port.cmdHdr == 0x8)))) = true := by
  decide +kernel

/-- A RELEASE that failed in READY is issued again, though no try is left (70_reset R259). -/
theorem test_host_must_release :
    after (step (hosting .releasing true [] (responding .backendIo (ranOp 8 (s0 4 false []))))) (fun t =>
      t.host.stage == .releasing && t.port.cmdValid && t.port.cmdHdr == 0x8) = true := by decide +kernel

/-- At `DONE_VALID`, and by `LAST_STATUS`; and with lines that a reset left claimed. -/
theorem witness_HostReleasesOnFailure :
    ((hosting .running true [.hold 1] (responding .backendIo (s0 4 false []))).cmdReady = true ∧
      (hosting .running true [.hold 1] (responding .backendIo (s0 4 false []))).port.cmdValid = false ∧
      HostSees .backendIo (hosting .running true [.hold 1] (responding .backendIo (s0 4 false []))) ∧
      Status.backendIo ≠ .ok ∧
      (hosting .running true [.hold 1] (responding .backendIo (s0 4 false []))).host.stage = .running) ∧
    HostSees .frameLength (readingStatus [0] (hosting .shutdown true [] (responding .frameLength (s0 4 false [])))) ∧
    (HostSees .stateError (owing true true [lines false] (hosting .running true [] (responding .stateError (z0 [])))) ∧
      (owing true true [lines false] (hosting .running true [] (responding .stateError (z0 [])))).regs.claimed = false ∧
      (owing true true [lines false] (hosting .running true [] (responding .stateError (z0 [])))).host.cut =
        [lines false]) :=
  ⟨⟨rfl, rfl, ⟨rfl, .inl ⟨rfl, rfl, rfl⟩⟩, by decide, rfl⟩, ⟨rfl, .inr ⟨rfl, rfl, rfl⟩⟩,
    ⟨rfl, .inl ⟨rfl, rfl, rfl⟩⟩, rfl, rfl⟩

/-- An interrupt has been delivered. -/
def interrupting (s : State) : State := { s with host := { s.host with interrupt := true, holdLeft := 3 } }

theorem witness_InterruptStartsShutdown :
    (interrupting (hosting .running false [] (s0 4 false []))).cmdReady = true ∧
    (interrupting (hosting .running false [] (s0 4 false []))).port.cmdValid = false ∧
    (interrupting (hosting .running false [] (s0 4 false []))).host.awaiting = false ∧
    (interrupting (hosting .running false [] (s0 4 false []))).host.stage = .running ∧
    (interrupting (hosting .running false [] (s0 4 false []))).host.interrupt = true := by decide

/-- The response to the last RELEASE: OK, or, no INIT having succeeded, a failure with no try left; and each other
clause: a response and a reset in READY, a response in RELEASED, and one to an INIT that claims its lines again. -/
theorem witness_HostEndsOnlyAfterRelease :
    Inv (hosting .releasing true [] (responding .ok (ranOp 8 (releasedState (s0 4 true []))))) ∧
    after (step (owing true false [] (hosting .releasing true []
        (responding .ok (ranOp 8 (releasedState (s0 4 true [])))))))
      (fun t => t.host.stage == .exited && !t.host.owes) = true ∧
    after (step (hosting .releasing true [] (responding .backendIo (ranOp 8 (z0 [])))))
      (fun t => t.host.stage == .exited && t.host.reported == some .backendIo) = true ∧
    after (step (hosting .running true [] (responding .ok (s0 4 true [])))) (fun t => t.host.owes) = true ∧
    after (step (inReset (hosting .running false [] (s0 4 true []))))
      (fun t => t.host.owes && t.host.cut == [lines true]) = true ∧
    after (step (owing true true [lines true] (hosting .releasing true [] (responding .ok (s0 4 true [])))))
      (fun t => t.host.cut == []) = true :=
  ⟨witness_Inv_releasing.2.1, by decide, by decide, by decide, by decide, by decide +kernel⟩

/-- A frame at each end of the lengths, and the widths of `loadz`. -/
theorem witness_AssembledLinesDecode :
    [true].length ≤ 255 ∧ (List.replicate 255 true).length ≤ 255 ∧ (0 ≤ 255 ∧ 255 ≤ 255) ∧
    ∀ d st sh pwr width warn, AsmLine.loadz ≠ .init d st sh pwr width warn :=
  ⟨by decide, by rw [List.length_replicate], by decide, nofun⟩

end Sys2Proof.Tests
end

/-! ### The words and wires: 10_state R52, R53, R55, R57 -/

namespace Sys2Proof.Machine

/-- The one-bit fields of `STATUS` (10_state R52). -/
theorem statusWord_getLsbD (r : Regs) :
    r.statusWord.getLsbD 2 = r.busy ∧ r.statusWord.getLsbD 3 = r.claimed ∧
      r.statusWord.getLsbD 8 = r.cfgPwrEn ∧ r.statusWord.getLsbD 9 = r.cfgWarn := by
  have joined : r.statusWord =
      (r.lvlPwr.code ++ r.lvlStcp.code ++ r.lvlShcp.code ++ r.lvlData.code ++ r.cfgWidth ++ 0#6
        ++ BitVec.ofBool r.cfgWarn ++ BitVec.ofBool r.cfgPwrEn ++ r.lastStatus.code
        ++ BitVec.ofBool r.claimed ++ BitVec.ofBool r.busy ++ r.life.code).cast rfl := rfl
  simp only [joined, BitVec.getLsbD_cast, BitVec.getLsbD_append]
  simp

/-- The wider fields of `STATUS` (10_state R52): the fields below are skipped, the field itself is read whole. -/
theorem statusWord_extractLsb' (r : Regs) :
    r.statusWord.extractLsb' 0 2 = r.life.code ∧ r.statusWord.extractLsb' 4 4 = r.lastStatus.code ∧
      r.statusWord.extractLsb' 10 6 = 0 ∧ r.statusWord.extractLsb' 16 8 = r.cfgWidth ∧
      r.statusWord.extractLsb' 24 2 = r.lvlData.code ∧ r.statusWord.extractLsb' 26 2 = r.lvlShcp.code ∧
      r.statusWord.extractLsb' 28 2 = r.lvlStcp.code ∧ r.statusWord.extractLsb' 30 2 = r.lvlPwr.code := by
  unfold Regs.statusWord
  refine ⟨?_, ?_, ?_, ?_, ?_, ?_, ?_, ?_⟩ <;> repeat rw [BitVec.extractLsb'_append_eq_of_le (by decide)]
  -- the last field has none above it
  case refine_8 => exact BitVec.extractLsb'_eq_self
  all_goals exact BitVec.extractLsb'_append_eq_right

/-- The fields of `CFGW` (10_state R53). -/
theorem cfgWord_extractLsb' (r : Regs) :
    r.cfgWord.extractLsb' 0 8 = r.cfgDataLine ∧ r.cfgWord.extractLsb' 8 8 = r.cfgStcpLine ∧
      r.cfgWord.extractLsb' 16 8 = r.cfgShcpLine ∧ r.cfgWord.extractLsb' 24 8 = r.cfgPwrLine := by
  unfold Regs.cfgWord
  refine ⟨?_, ?_, ?_, ?_⟩ <;> repeat rw [BitVec.extractLsb'_append_eq_of_le (by decide)]
  -- the last field has none above it
  case refine_4 => exact BitVec.extractLsb'_eq_self
  all_goals exact BitVec.extractLsb'_append_eq_right

/-- The words after reset, the same for every `WMAX`: no field reads `FBUF` (10_state R52, R53, R57). -/
theorem reset_words (wmax : Nat) :
    (Regs.reset wmax).statusWord = 0xAA00_0000 ∧ (Regs.reset wmax).cfgWord = 0 ∧
      (Regs.reset wmax).gpioWarnEn = false := by
  have hs : (Regs.reset wmax).statusWord = (Regs.reset 0).statusWord := rfl
  have hc : (Regs.reset wmax).cfgWord = (Regs.reset 0).cfgWord := rfl
  rw [hs, hc]
  exact ⟨by decide, by decide, rfl⟩

/-- Settles O31: each word is its fields joined, so a slice at a field's place reads that field. -/
theorem statusAndConfigWords : Obligations.StatusAndConfigWords := by
  unfold Obligations.StatusAndConfigWords
  refine ⟨fun r => ?_, reset_words, ?_, ?_, ?_⟩
  · obtain ⟨busy, claimed, pwrEn, warn⟩ := statusWord_getLsbD r
    obtain ⟨life, status, reserved, width, data, shcp, stcp, pwr⟩ := statusWord_extractLsb' r
    obtain ⟨dataLine, stcpLine, shcpLine, pwrLine⟩ := cfgWord_extractLsb' r
    exact ⟨life, busy, claimed, status, pwrEn, warn, reserved, width, data, shcp, stcp, pwr,
      dataLine, stcpLine, shcpLine, pwrLine, rfl⟩
  · exact ⟨rfl, rfl, rfl⟩
  · exact ⟨rfl, rfl, rfl, rfl⟩
  · exact ⟨rfl, rfl, rfl, rfl, rfl, rfl, rfl⟩

/-- The request outputs while nothing is in flight (10_state R55). -/
theorem request_idle {r : Regs} (hb : r.busy = false) : r.request = noRequest := by
  simp [Regs.request, outstanding_idle hb]

/-- The request outputs while `SEQ[K]` is outstanding (10_state R55). -/
theorem request_busy {r : Regs} {t : Txn} (hb : r.busy = true) (ht : r.seq[r.k]? = some t) :
    r.request = r.present t := by
  simp [Regs.request, outstanding_eq hb, ht]

/-- What the request outputs show is a transaction or nothing. -/
theorem request_cases (r : Regs) : r.request = noRequest ∨ ∃ t, r.request = r.present t := by
  unfold Regs.request
  split
  · exact .inr ⟨_, rfl⟩
  · exact .inl rfl

/-- No transaction has the code `0b11` (10_state R55). -/
theorem present_op_ne (r : Regs) (t : Txn) : (r.present t).op ≠ 0b11 := by
  cases t <;> simp [Regs.present]

/-- Settles O32: by what the outputs show, idle (`request_idle`) and with a transaction outstanding
(`request_busy`). -/
theorem requestOutputsFollowSeq : Obligations.RequestOutputsFollowSeq := by
  unfold Obligations.RequestOutputsFollowSeq
  intro r
  refine ⟨request_idle, fun t hb ht => ?_, ?_⟩
  · rw [request_busy hb ht]
    cases t with
    | configure role => cases role <;> simp [Regs.present, Regs.line]
    | write role v => cases role <;> simp [Regs.present, Regs.line]
    | releaseAll => simp [Regs.present]
  · rcases request_cases r with h | ⟨t, h⟩ <;> rw [h]
    · decide
    · exact present_op_ne r t

/-! ### The configuration registers: 10_state R44 -/

/-- The configuration registers together (10_state R37 to R43). -/
def Regs.configRegs (r : Regs) : LineId × LineId × LineId × LineId × Bool × BitVec 8 × Bool :=
  (r.cfgDataLine, r.cfgStcpLine, r.cfgShcpLine, r.cfgPwrLine, r.cfgPwrEn, r.cfgWidth, r.cfgWarn)

theorem sameConfig_iff (r r' : Regs) : SameConfig r r' ↔ r'.configRegs = r.configRegs := by
  simp only [SameConfig, Regs.configRegs, Prod.mk.injEq]

@[simp] theorem tick_configRegs (r : Regs) : r.tick.configRegs = r.configRegs := rfl

@[simp] theorem respond_configRegs (c : Status) (r : Regs) : (r.respond c).configRegs = r.configRegs := by
  rw [respond_eq]; rfl

@[simp] theorem abort_configRegs (c : Status) (r : Regs) : (r.abort c).configRegs = r.configRegs := by
  rw [abort_eq]; rfl

@[simp] theorem shadow_configRegs (t : Txn) (a : Answer) (r : Regs) :
    (r.shadow t a).configRegs = r.configRegs := by
  simp [Regs.configRegs]

/-- The edges of a command in flight keep the configuration. -/
@[simp] theorem runAnswers_configRegs (n : Nat) (s : State) :
    (runAnswers n s).regs.configRegs = s.regs.configRegs :=
  runAnswers_keeps_field Regs.configRegs (fun r t a => shadow_configRegs t a r) (fun r c => respond_configRegs c r)
    (fun r c => abort_configRegs c r) (fun _ _ => rfl) tick_configRegs (fun _ _ => rfl) n s

/-- Only `Prepare` of INIT writes the configuration (30_encoding R115). -/
theorem preparedRegs_configRegs {i : Instr} (hi : opcodeOf i ≠ 1) (s : State) :
    (preparedRegs i s).configRegs = s.regs.configRegs := by
  cases i with
  | init => exact absurd rfl hi
  | _ => rfl

/-- A command that passes its validation changes the configuration by its `Prepare` alone. -/
theorem exec_valid_configRegs {i : Instr} {s t : State} (hr : s.cmdReady = true)
    (hc : checkAdmitted (opcodeOf i) s.regs.life (ownCheck i s) = .ok) (h : exec i s = .next t) :
    t.regs.configRegs = (preparedRegs i s).configRegs := by
  rw [exec_eq_issue, issue_ready _ hr] at h
  rw [← Host.Outcome.next.inj h, runAnswers_configRegs, acceptOf_ok hc]
  dsimp only
  split_ifs
  · rw [respond_configRegs]; rfl
  · rfl

/-- A command whose execution changes the configuration is an INIT that passes its validation (10_state R44). -/
theorem exec_changes_config {i : Instr} {s t : State} (hr : s.cmdReady = true) (h : exec i s = .next t)
    (hn : t.regs.configRegs ≠ s.regs.configRegs) :
    opcodeOf i = 1 ∧ checkAdmitted (opcodeOf i) s.regs.life (ownCheck i s) = .ok := by
  have hc : checkAdmitted (opcodeOf i) s.regs.life (ownCheck i s) = .ok := by
    by_contra hc
    rw [exec_invalid hr hc] at h
    exact hn (congrArg (·.regs.configRegs) (Host.Outcome.next.inj h)).symm
  refine ⟨by_contra fun hi => hn ?_, hc⟩
  rw [exec_valid_configRegs hr hc h, preparedRegs_configRegs hi]

/-- Outside reset the configuration changes only at the acceptance of a command. -/
theorem step_changes_config {s t : State} (hl : s.port.rstLow = 0) (h : step s = .next t)
    (hn : t.regs.configRegs ≠ s.regs.configRegs) :
    s.cmdReady = true ∧ s.port.cmdValid = true ∧ ∃ i, fetchCommand s = .ok i ∧ exec i s = .next t := by
  rcases step_cases h with ⟨hp, _⟩ | ⟨_, _, _, rfl⟩ | hexec | ⟨_, _, _, _, rfl⟩ | ⟨_, _, rfl⟩
  · omega
  · exact absurd (runAnswers_configRegs _ s) hn
  · exact hexec
  · exact absurd rfl hn
  · exact absurd rfl hn

/-- Validation passes if the command is admitted and passes its own checks (60_exceptions R221). -/
theorem checkAdmitted_eq_ok {op : BitVec 4} {l : Life} {own : Status} :
    checkAdmitted op l own = .ok ↔ admitted op l = true ∧ own = .ok := by
  unfold checkAdmitted
  split_ifs with ha <;> simp [ha]

/-- INIT is admitted outside READY (60_exceptions R222). -/
theorem admitted_init {l : Life} : admitted 1 l = true ↔ l ≠ .ready := by
  simp [admitted]

/-- The lines an INIT uses are distinct exactly so (40_init R131). -/
theorem usedLines_nodup {pwrEn : Bool} {d st sh pw : LineId} :
    (usedLines pwrEn d st sh pw).Nodup ↔
      d ≠ st ∧ d ≠ sh ∧ st ≠ sh ∧ (pwrEn = true → pw ≠ d ∧ pw ≠ st ∧ pw ≠ sh) := by
  cases pwrEn
  · simp [usedLines, and_assoc]
  · simp [usedLines, eq_comm]; tauto

/-- The check of INIT passes exactly so (40_init R131). -/
theorem configCheck_eq_ok {wmax : Nat} {pwrEn : Bool} {width : BitVec 8} {d st sh pw : LineId} :
    configCheck wmax pwrEn width d st sh pw = .ok ↔
      1 ≤ width.toNat ∧ width.toNat ≤ wmax ∧ (usedLines pwrEn d st sh pw).Nodup := by
  unfold configCheck
  split_ifs with hw hn
  · simp; omega
  · simp [hn]; omega
  · simp [hn]

/-- Settles O41: neither an answer nor the end of a command writes the configuration, and of the commands only INIT's
`Prepare` does, which runs after admission and the configuration check. -/
theorem configChangesOnlyByInit : Obligations.ConfigChangesOnlyByInit := by
  unfold Obligations.ConfigChangesOnlyByInit
  intro s t hl h hn
  rw [sameConfig_iff] at hn
  obtain ⟨hr, hv, i, hf, he⟩ := step_changes_config hl h hn
  obtain ⟨hi, hc⟩ := exec_changes_config hr he hn
  obtain ⟨ha, hown⟩ := checkAdmitted_eq_ok.mp hc
  cases i with
  | init pwrEn warn width d st sh pw =>
    obtain ⟨hw1, hw2, hnodup⟩ := configCheck_eq_ok.mp hown
    exact ⟨((cmdReady_iff s).mp hr).1, hv, admitted_init.mp ha, pwrEn, warn, width, d, st, sh, pw, hf, hw1, hw2,
      usedLines_nodup.mp hnodup⟩
  | _ => exact absurd hi (by simp [opcodeOf])

end Sys2Proof.Machine

/-! ### The shadows at an answer: 20_memory R81 -/

namespace Sys2Proof.Machine

/-- Writing a shadow writes that role's alone (10_state R51). -/
@[simp] theorem setLvl_lvl (r : Regs) (role : Role) (l : Level) :
    (r.setLvl role l).lvl = Function.update r.lvl role l := by
  funext other
  cases role <;> cases other <;> rfl

@[simp] theorem tick_lvl (r : Regs) : r.tick.lvl = r.lvl := rfl

@[simp] theorem atK_lvl (n : Nat) (r : Regs) : (r.atK n).lvl = r.lvl := rfl

@[simp] theorem respond_lvl (c : Status) (r : Regs) : (r.respond c).lvl = r.lvl := by
  rw [respond_eq]; rfl

@[simp] theorem abort_lvl (c : Status) (r : Regs) : (r.abort c).lvl = r.lvl := by
  rw [abort_eq]; rfl

/-- Whether the command goes on or ends, the shadows are those of `Regs.shadow`. -/
theorem answered_lvl (r : Regs) (t : Txn) (a : Answer) : (r.answered t a).lvl = (r.shadow t a).lvl := by
  rcases answered_cases r t a with ⟨_, _, h⟩ | ⟨_, _, h⟩ | ⟨_, _, _, h⟩ | ⟨_, _, h⟩ <;> rw [h]
  · exact atK_lvl _ _
  · exact respond_lvl _ _
  · rfl
  · exact abort_lvl _ _

/-- The shadows after the edge at which `t` is answered (20_memory R81). -/
theorem answerEdge_lvl {s : State} {t : Txn} (h : s.regs.outstanding = some t) (a : Answer) :
    (answerEdge a s).regs.lvl = (s.regs.shadow t a).lvl := by
  rw [answerEdge_some h, answered_lvl, shadow_tick, tick_lvl]

/-- The rows of 20_memory R81 for a write. -/
theorem shadow_write_lvl (r : Regs) (role : Role) (v : Bool) (a : Answer) :
    (r.shadow (.write role v) a).lvl = Function.update r.lvl role (if a = .ok then Level.ofBool v else .x) := by
  cases a <;> exact setLvl_lvl _ _ _

/-- The rows of 20_memory R81 for a configure. -/
theorem shadow_configure_lvl (r : Regs) (role : Role) (a : Answer) :
    (r.shadow (.configure role) a).lvl = Function.update r.lvl role .x := by
  cases a <;> exact setLvl_lvl _ _ _

/-- The rows of 20_memory R81 for a release of all lines. -/
theorem shadow_releaseAll_lvl (r : Regs) (a : Answer) (role : Role) :
    (r.shadow .releaseAll a).lvl role = if a = .ok then .u else .x := by
  cases a <;> cases role <;> rfl

/-- Settles O33: the answered edge leaves the shadows of `Regs.shadow` (`answerEdge_lvl`), given for each kind of
transaction by R81's rows. -/
theorem answerUpdatesShadows : Obligations.AnswerUpdatesShadows := by
  unfold Obligations.AnswerUpdatesShadows
  intro s t a hb ht
  rw [answerEdge_lvl ((outstanding_eq hb).trans ht) a]
  refine ⟨?write, ?configure, ?releaseAll⟩
  case write =>
    rintro role v rfl
    rw [shadow_write_lvl]
    exact ⟨Function.update_self .., fun other hne => Function.update_of_ne hne ..⟩
  case configure =>
    rintro role rfl
    rw [shadow_configure_lvl]
    exact ⟨Function.update_self .., fun other hne => Function.update_of_ne hne ..⟩
  case releaseAll =>
    rintro rfl role
    exact shadow_releaseAll_lvl _ _ _

end Sys2Proof.Machine

/-! ### What the edges of a command keep, and its end at a failed transaction: 30_encoding R114, 60_exceptions R225 -/

namespace Sys2Proof.Machine

/-- The configuration registers one by one, in the order in which INIT writes them (40_init R132). -/
theorem configRegs_eq_iff {r : Regs} {pwrEn warn : Bool} {width : BitVec 8} {d st sh pw : LineId} :
    r.configRegs = (d, st, sh, pw, pwrEn, width, warn) ↔
      r.cfgWidth = width ∧ r.cfgDataLine = d ∧ r.cfgStcpLine = st ∧ r.cfgShcpLine = sh ∧ r.cfgPwrLine = pw ∧
        r.cfgPwrEn = pwrEn ∧ r.cfgWarn = warn := by
  simp only [Regs.configRegs, Prod.mk.injEq]
  tauto

/-- What no shadow update writes, a list of transactions answered OK keeps. -/
theorem shadowAll_keeps_field {β : Type} (f : Regs → β) (hs : ∀ r t a, f (Regs.shadow r t a) = f r)
    (ts : List Txn) (r : Regs) : f (Regs.shadowAll ts r) = f r := by
  induction ts generalizing r with
  | nil => rfl
  | cons t ts ih => rw [Regs.shadowAll, ih, hs]

@[simp] theorem shadowAll_configRegs (ts : List Txn) (r : Regs) :
    (Regs.shadowAll ts r).configRegs = r.configRegs :=
  shadowAll_keeps_field _ (fun r t a => shadow_configRegs t a r) ts r

@[simp] theorem shadowAll_claimed (ts : List Txn) (r : Regs) : (Regs.shadowAll ts r).claimed = r.claimed :=
  shadowAll_keeps_field _ (fun r t a => shadow_claimed t a r) ts r

@[simp] theorem shadowAll_curOp (ts : List Txn) (r : Regs) : (Regs.shadowAll ts r).curOp = r.curOp :=
  shadowAll_keeps_field _ (fun r t a => shadow_curOp t a r) ts r

/-- The edges of a command in flight keep its transaction list (10_state R47). -/
@[simp] theorem runAnswers_seq (n : Nat) (s : State) : (runAnswers n s).regs.seq = s.regs.seq :=
  runAnswers_keeps_field Regs.seq (fun r t a => shadow_seq t a r) (fun r c => by rw [respond_eq])
    (fun r c => by rw [abort_eq]) (fun _ _ => rfl) tick_seq (fun _ _ => rfl) n s

/-- The edges of a command in flight, but for a RELEASE, keep the claim on the lines (10_state R35). -/
theorem runAnswers_claimed (n : Nat) {s : State} (h8 : s.regs.curOp ≠ 8) (hc : s.regs.claimed = true) :
    (runAnswers n s).regs.claimed = true := by
  have hrespond (r : Regs) (c : Status) :
      ((r.respond c).curOp ≠ 8 ∧ (r.respond c).claimed = true) = (r.curOp ≠ 8 ∧ r.claimed = true) := by
    rw [respond_eq]
    by_cases h : r.curOp = 8#4 <;> simp [h]
  have hkept := runAnswers_keeps_field (fun r => r.curOp ≠ 8 ∧ r.claimed = true) (fun r t a => by simp) hrespond
    (fun r c => by rw [abort_eq]) (fun _ _ => rfl) (fun _ => rfl) (fun _ _ => rfl) n s
  exact (hkept.mpr ⟨h8, hc⟩).2

/-- The registers of a command that passes validation and has transactions to issue, at its acceptance (30_encoding
R114). -/
theorem acceptOf_regs {i : Instr} {s : State}
    (hc : checkAdmitted (opcodeOf i) s.regs.life (ownCheck i s) = .ok) (hne : (preparedRegs i s).seq ≠ []) :
    (acceptOf i s).regs = { preparedRegs i s with k := 0, busy := true } := by
  rw [acceptOf_ok hc]
  exact if_neg hne

/-- A command that passes validation and whose transaction `j` is answered ERR, which ends it (60_exceptions R225). -/
theorem exec_aborted {i : Instr} {s : State} {ts : List Txn} {j : Nat} {t : Txn} (hr : s.cmdReady = true)
    (hc : checkAdmitted (opcodeOf i) s.regs.life (ownCheck i s) = .ok) (hseq : (preparedRegs i s).seq = ts)
    (ht : ts[j]? = some t) (h8 : opcodeOf i = 8 → t = .releaseAll)
    (hh : BackendAnswers (List.replicate j .ok ++ [.err]) s) :
    ∃ u, exec i s = .next u ∧
      u.regs = ((Regs.shadowAll (ts.take j) (({ preparedRegs i s with busy := true } : Regs).tick.atK j)).shadow t
        .err).abort .backendIo ∧
      u.trace = s.trace ++ okTrace (ts.take j) ++ [(t, .err)] := by
  have hacc : acceptOf i s = acceptEdge (opcodeOf i) .ok (prepareOf i) s := by rw [acceptOf, hc]
  have hrun := issue_aborted (op := opcodeOf i) (prepare := prepareOf i) (p := preparedRegs i s) hr rfl hseq ht
    (fun h => h8 ((preparedRegs_curOp i s).symm.trans h)) hh
  rw [exec_eq_issue, issue, hacc]
  exact ⟨_, hrun, rfl, rfl⟩

/-! ### INIT: 40_init R131 to R135 -/

/-- The only failure of the check of INIT is CONFIG_ERROR (40_init R131). -/
theorem configCheck_eq_configError {wmax : Nat} {pwrEn : Bool} {width : BitVec 8} {d st sh pw : LineId}
    (h : configCheck wmax pwrEn width d st sh pw ≠ .ok) :
    configCheck wmax pwrEn width d st sh pw = .configError := by
  unfold configCheck at h ⊢
  split_ifs at h ⊢ <;> trivial

/-- INIT passes its check exactly with a width in range and distinct lines (40_init R131). -/
theorem configCheck_eq_ok_iff_distinct {wmax : Nat} {pwrEn : Bool} {width : BitVec 8} {d st sh pw : LineId} :
    configCheck wmax pwrEn width d st sh pw = .ok ↔
      1 ≤ width.toNat ∧ width.toNat ≤ wmax ∧
        d ≠ st ∧ d ≠ sh ∧ st ≠ sh ∧ (pwrEn = true → pw ≠ d ∧ pw ≠ st ∧ pw ≠ sh) := by
  rw [configCheck_eq_ok, usedLines_nodup]

theorem initSeq_ne_nil (pwrEn : Bool) : initSeq pwrEn ≠ [] := by
  simp [initSeq]

/-- The number of transactions of INIT (40_init R132). -/
theorem initSeq_length (pwrEn : Bool) : (initSeq pwrEn).length = if pwrEn then 8 else 6 := by
  cases pwrEn <;> rfl

/-- All of INIT answered OK leaves the shadows at the default levels (40_init R133). -/
theorem shadowAll_initSeq (pwrEn : Bool) (r : Regs) :
    Regs.shadowAll (initSeq pwrEn) r =
      { r with
        lvlData := .low, lvlShcp := .low, lvlStcp := .low
        lvlPwr := if pwrEn then .high else r.lvlPwr } := by
  cases pwrEn <;> simp [initSeq, Regs.shadowAll, Regs.shadow, Regs.setLvl, Level.ofBool]

/-- All of INIT answered OK drives every line from an unknown level, so that no cell of the device is known
(40_init R135, 20_memory R93). -/
theorem transactAll_initSeq (pq : PwrQEffect) (pwrEn : Bool) (dev : Device) :
    Device.transactAll pq pwrEn (initSeq pwrEn) dev =
      { sr := List.replicate dev.sr.length .x, q := List.replicate dev.q.length .x
        pData := .zero, pShcp := .zero, pStcp := .zero
        pPwr := if pwrEn then .one else dev.pPwr } := by
  rcases dev with ⟨sr, q, a, b, c, p⟩
  cases pwrEn with
  | false =>
    simp [initSeq, Device.transactAll, Device.transact, Device.drive, Device.event, Device.setLevel, Device.level,
      Device.shiftEvent, Device.storeEvent, Cell.ofBool, allCells_eq_replicate]
  | true =>
    -- the level of the power line decides what a shift clock does (20_memory R90), `PWR_Q_EFFECT` what becomes of `Q`
    cases p <;> cases pq <;>
      simp [initSeq, Device.transactAll, Device.transact, Device.drive, Device.event, Device.setLevel, Device.level,
        Device.shiftEvent, Device.storeEvent, Device.powerEvent, Device.powerQ, Cell.ofBool, allCells_eq_replicate]

section Init

variable {s : State} {pwrEn warn : Bool} {width : BitVec 8} {d st sh pw : LineId}

/-- Validation of an INIT outside READY is its configuration check (60_exceptions R221, R222). -/
theorem checkAdmitted_init (hl : s.regs.life ≠ .ready) :
    checkAdmitted (opcodeOf (.init pwrEn warn width d st sh pw)) s.regs.life
      (ownCheck (.init pwrEn warn width d st sh pw) s) = configCheck s.params.wmax pwrEn width d st sh pw :=
  if_pos (admitted_init.mpr hl)

theorem preparedRegs_init_configRegs :
    (preparedRegs (.init pwrEn warn width d st sh pw) s).configRegs = (d, st, sh, pw, pwrEn, width, warn) := rfl

theorem preparedRegs_init_seq : (preparedRegs (.init pwrEn warn width d st sh pw) s).seq = initSeq pwrEn := rfl

/-- An admitted INIT that fails its check ends with CONFIG_ERROR (40_init R131). -/
theorem exec_init_refused (hr : s.cmdReady = true) (hl : s.regs.life ≠ .ready)
    (hc : configCheck s.params.wmax pwrEn width d st sh pw ≠ .ok) :
    exec (.init pwrEn warn width d st sh pw) s = .next (refusedWith .configError s) := by
  rw [exec_invalid hr (by rwa [checkAdmitted_init hl]), checkAdmitted_init hl, configCheck_eq_configError hc]

/-- An admitted INIT that passes its check leaves what `Prepare` wrote, whatever the backend answers (40_init
R132). -/
theorem exec_init_prepares (hr : s.cmdReady = true) (hl : s.regs.life ≠ .ready)
    (hc : configCheck s.params.wmax pwrEn width d st sh pw = .ok) :
    ∃ t, exec (.init pwrEn warn width d st sh pw) s = .next t ∧
      t.regs.configRegs = (d, st, sh, pw, pwrEn, width, warn) ∧ t.regs.claimed = true ∧
      t.regs.seq = initSeq pwrEn := by
  have hvalid := (checkAdmitted_init (warn := warn) hl).trans hc
  have hrun := (exec_eq_issue (.init pwrEn warn width d st sh pw) s).trans (issue_ready _ hr)
  have hacc := acceptOf_regs hvalid (initSeq_ne_nil pwrEn)
  refine ⟨_, hrun, exec_valid_configRegs hr hvalid hrun, runAnswers_claimed _ ?_ ?_, ?_⟩
  · simp [hacc, preparedRegs_curOp, opcodeOf]
  · rw [hacc]; rfl
  · rw [runAnswers_seq, hacc]; rfl

end Init

/-- Settles O8: by the outcome of the configuration check; neither an answer nor the end of an INIT rewrites what
`Prepare` wrote. -/
theorem initChecksThenPrepares : Obligations.InitChecksThenPrepares := by
  unfold Obligations.InitChecksThenPrepares
  intro s pwrEn warn width d st sh pw hr hl
  split
  case isTrue hbad =>
    have hc : configCheck s.params.wmax pwrEn width d st sh pw ≠ .ok :=
      mt configCheck_eq_ok_iff_distinct.mp (by grind)
    exact ⟨_, exec_init_refused hr hl hc, rfl, rfl, rfl⟩
  case isFalse hgood =>
    have hc : configCheck s.params.wmax pwrEn width d st sh pw = .ok :=
      configCheck_eq_ok_iff_distinct.mpr (by grind)
    obtain ⟨t, hexec, hcfg, hclaimed, hseq⟩ := exec_init_prepares (warn := warn) hr hl hc
    obtain ⟨hwidth, hdata, hstcp, hshcp, hpwr, hpwrEn, hwarn⟩ := configRegs_eq_iff.mp hcfg
    exact ⟨t, hexec, hwidth, hdata, hstcp, hshcp, hpwr, hpwrEn, hwarn, hclaimed, hseq⟩

/-- Settles O11: the run on a healthy backend (`exec_healthy`), with the shadows and the device after all of `SEQ`
(`shadowAll_initSeq`, `transactAll_initSeq`). -/
theorem initCompletes : Obligations.InitCompletes := by
  unfold Obligations.InitCompletes
  intro s pwrEn warn width d st sh pw hr hl hw1 hw2 h1 h2 h3 hpw hh
  have hc := (checkAdmitted_init (warn := warn) hl).trans
    (configCheck_eq_ok_iff_distinct.mpr ⟨hw1, hw2, h1, h2, h3, hpw⟩)
  rw [← initSeq_length] at hh
  refine ⟨_, exec_healthy hr hc rfl preparedRegs_init_seq (initSeq_ne_nil pwrEn) rfl hh, ?_, ?_, rfl⟩
  · rw [shadowAll_initSeq, respond_eq, initSeq_length]
    cases pwrEn <;> rfl
  · exact transactAll_initSeq _ pwrEn s.dev

/-- Settles O37: the run up to the failed transaction (`exec_aborted`); the abort keeps what `Prepare` wrote and
leaves UNCONFIGURED with the lines claimed, where INIT is admitted and RELEASE issues `ReleaseAll`. -/
theorem initAbortsOnBackendError : Obligations.InitAbortsOnBackendError := by
  unfold Obligations.InitAbortsOnBackendError
  intro s pwrEn warn width d st sh pw j e hr hl hw1 hw2 h1 h2 h3 hpw he hb
  have hc := (checkAdmitted_init (warn := warn) hl).trans
    (configCheck_eq_ok_iff_distinct.mpr ⟨hw1, hw2, h1, h2, h3, hpw⟩)
  obtain ⟨t, hexec, hregs, htrace⟩ := exec_aborted hr hc preparedRegs_init_seq he (by simp [opcodeOf]) hb
  have hcfg : t.regs.configRegs = (d, st, sh, pw, pwrEn, width, warn) := by
    rw [hregs, abort_configRegs, shadow_configRegs, shadowAll_configRegs]
    exact preparedRegs_init_configRegs (s := s)
  have hclaimed : t.regs.claimed = true := by
    rw [hregs, abort_eq]
    simp only [shadow_claimed, shadowAll_claimed]
    rfl
  have hresponse : t.regs.busy = false ∧ t.regs.lastStatus = .backendIo ∧ t.regs.doneStatus = .backendIo ∧
      t.regs.doneValid = true := by
    rw [hregs, abort_eq]
    exact ⟨rfl, rfl, rfl, rfl⟩
  have hlife : t.regs.life = .unconfigured := by
    rw [hregs, abort_eq]
    simp [preparedRegs_curOp, opcodeOf]
  obtain ⟨hwidth, hdata, hstcp, hshcp, hpwr, hpwrEn, hwarn⟩ := configRegs_eq_iff.mp hcfg
  obtain ⟨hbusy, hlast, hstatus, hdone⟩ := hresponse
  refine ⟨t, hexec, hbusy, hlast, hstatus, hdone, hlife, hclaimed, hwidth, hdata, hstcp, hshcp, hpwr, hpwrEn, hwarn,
    htrace, admitted_init.mpr (by simp [hlife]), ?_⟩
  simp [releaseSeq, hlife, hclaimed]

end Sys2Proof.Machine

/-! ### Commands of READY answered OK throughout, LOAD_FRAME and STORE: 41_bit_protocol R143 to R146 -/

namespace Sys2Proof.Machine

/-- In READY only INIT is not admitted (60_exceptions R222). -/
theorem admitted_ready {op : BitVec 4} : admitted op .ready = true ↔ op ≠ 1 := by
  by_cases h : op = 1 <;> simp [admitted, h]

/-- `Prepare` starts with `REL_ERR` cleared and does not set it (30_encoding R114, R115). -/
theorem preparedRegs_relErr (i : Instr) (s : State) : (preparedRegs i s).relErr = false := by
  cases i <;> rfl

/-- The power enable is one of the configuration registers, which only INIT prepares. -/
theorem preparedRegs_cfgPwrEn {i : Instr} (hi : opcodeOf i ≠ 1) (s : State) :
    (preparedRegs i s).cfgPwrEn = s.regs.cfgPwrEn := by
  obtain ⟨_, _, _, _, hpwr, _⟩ := (sameConfig_iff _ _).mpr (preparedRegs_configRegs hi s)
  exact hpwr

/-- A command other than INIT that passes its own checks in READY and issues `ts`, on a healthy backend. -/
theorem exec_ready_healthy {i : Instr} {s : State} {ts : List Txn} (hr : ReadyForCommand s) (hi : opcodeOf i ≠ 1)
    (hown : ownCheck i s = .ok) (hseq : (preparedRegs i s).seq = ts) (hne : ts ≠ []) (hh : Healthy ts.length s) :
    ∃ t, exec i s = .next t ∧
      t.regs = (Regs.shadowAll ts (({ preparedRegs i s with busy := true } : Regs).tick.atK (ts.length - 1))).respond
        .ok ∧
      t.dev = Device.transactAll s.params.pwrQ s.regs.cfgPwrEn ts s.dev ∧
      t.trace = s.trace ++ okTrace ts ∧ SameSurroundings s t := by
  obtain ⟨hready, hlife⟩ := hr
  have hvalid : checkAdmitted (opcodeOf i) s.regs.life (ownCheck i s) = .ok :=
    checkAdmitted_eq_ok.mpr ⟨hlife ▸ admitted_ready.mpr hi, hown⟩
  refine ⟨_, exec_healthy hready hvalid rfl hseq hne (preparedRegs_relErr i s) hh, rfl, ?_, rfl, rfl, rfl, rfl⟩
  rw [preparedRegs_cfgPwrEn hi]

/-- Each symbol of a carried frame is the valid symbol of its element (30_encoding R103, R108). -/
theorem CarriesFrame.sym_eq {f : List Bool} {p : Payload} (h : CarriesFrame f p) {i : Nat} (hi : i < f.length) :
    sym (payloadSym p i) = some f[i] := by
  rw [h i hi]
  cases f[i] <;> rfl

/-- A carried frame passes the symbol check of LOAD_FRAME (41_bit_protocol R143). -/
theorem CarriesFrame.frameValid {f : List Bool} {p : Payload} (h : CarriesFrame f p) :
    frameValid f.length p = true := by
  simp only [Machine.frameValid, List.all_eq_true, List.mem_range]
  intro i hi
  rw [h.sym_eq hi]
  rfl

/-- The elements LOAD_FRAME reads are those of the carried frame (30_encoding R108). -/
theorem CarriesFrame.frameBits {f : List Bool} {p : Payload} (h : CarriesFrame f p) : frameBits f.length p = f := by
  refine List.ext_getElem (by simp [Machine.frameBits]) fun i _ hi => ?_
  simp [Machine.frameBits, h.sym_eq hi]

/-- `LoadSeq` written out: four writes an element, in order (41_bit_protocol R144). -/
theorem loadSeq_eq_flatMap (f : List Bool) :
    loadSeq f = f.flatMap fun b =>
      [.write .data b, .write .shcp true, .write .shcp false, .write .data false] := by
  induction f with
  | nil => rfl
  | cons b f ih => rw [loadSeq, ih, List.flatMap_cons]; rfl

theorem loadSeq_ne_nil {f : List Bool} (h : f ≠ []) : loadSeq f ≠ [] := by
  cases f with
  | nil => exact absurd rfl h
  | cons b f => exact List.cons_ne_nil _ _

/-- A load into a register of as many stages as the frame has elements leaves nothing of the old contents
(41_bit_protocol R144). -/
theorem transactAll_loadSeq_full (pq : PwrQEffect) (e : Bool) {f : List Bool} {d : Device}
    (hlen : d.sr.length = f.length) (hc : d.pShcp = .zero) (hp : e = true → d.pPwr = .one) (hne : f ≠ []) :
    Device.transactAll pq e (loadSeq f) d = { d with sr := (cellsOf f).reverse, pData := .zero } := by
  rw [transactAll_loadSeq pq e f d hc hp hne]
  simp [hlen, cellsOf]

/-- A device whose stages hold a frame, its first element in the last stage, shows the frame (20_memory R95, R96). -/
theorem take_cellsOf_reverse (f : List Bool) : ((cellsOf f).reverse.take f.length).reverse = cellsOf f := by
  rw [List.take_of_length_le (by simp [cellsOf]), List.reverse_reverse]

/-- LOAD_FRAME of a frame of the configured width, on a healthy backend (41_bit_protocol R143, R144). -/
theorem exec_loadFrame_healthy {s : State} {f : List Bool} {p : Payload} (hr : ReadyForCommand s)
    (hw : 1 ≤ s.regs.width) (hf : f.length = s.regs.width) (hp : CarriesFrame f p)
    (hh : Healthy (4 * s.regs.width) s) :
    ∃ t, exec (.loadFrame s.regs.cfgWidth p) s = .next t ∧
      t.regs = { s.regs with
        lastStatus := .ok, doneStatus := .ok, doneValid := true, curOp := 5, relErr := false,
        fbuf := f ++ s.regs.fbuf.drop s.regs.width, seq := loadSeq f,
        k := 4 * s.regs.width - 1, lvlData := .low, lvlShcp := .low } ∧
      (s.dev.sr.length = s.regs.width → s.dev.pShcp = .zero → (s.regs.cfgPwrEn = true → s.dev.pPwr = .one) →
        t.dev = { s.dev with sr := (cellsOf f).reverse, pData := .zero }) ∧
      t.trace = s.trace ++ okTrace (loadSeq f) ∧ SameSurroundings s t := by
  have hne : f ≠ [] := List.ne_nil_of_length_pos (by omega)
  have hbusy : s.regs.busy = false := ((cmdReady_iff s).mp hr.1).1
  have hbits : frameBits s.regs.width p = f := hf ▸ hp.frameBits
  have hown : ownCheck (.loadFrame s.regs.cfgWidth p) s = .ok := by
    simp [ownCheck, checkLoadFrame, ← hf, hp.frameValid]
  have hprep : preparedRegs (.loadFrame s.regs.cfgWidth p) s =
      { s.regs.tick with
        relErr := false, curOp := 5, fbuf := f ++ s.regs.fbuf.drop s.regs.width, seq := loadSeq f } := by
    rw [← hbits]; rfl
  have hlen : (loadSeq f).length = 4 * s.regs.width := by rw [loadSeq_length, hf]
  obtain ⟨t, hexec, hregs, hdev, htrace, hsame⟩ :=
    exec_ready_healthy hr (i := .loadFrame s.regs.cfgWidth p) (by simp [opcodeOf]) hown (by rw [hprep])
      (loadSeq_ne_nil hne) (hlen ▸ hh)
  refine ⟨t, hexec, ?_, fun hsr hc hpwr => ?_, htrace, hsame⟩
  · rw [hregs, hprep, shadowAll_loadSeq f _ hne, respond_eq, hlen]
    simp [Regs.tick, Regs.atK, hbusy]
  · rw [hdev, transactAll_loadSeq_full _ _ (hsr.trans hf.symm) hc hpwr hne]

/-- Settles O15: the run of a load (`exec_loadFrame_healthy`); the register view of what it leaves is the frame
(`take_cellsOf_reverse`). -/
theorem loadFrameCompletes : Obligations.LoadFrameCompletes := by
  unfold Obligations.LoadFrameCompletes
  intro s f p hr hw hf hp hh
  obtain ⟨t, hexec, hregs, hdev, htrace, _⟩ := exec_loadFrame_healthy hr hw hf hp hh
  refine ⟨t, hexec, by rw [hregs, loadSeq_eq_flatMap], fun hsr hc hpwr => ?_, by rw [htrace, hregs]⟩
  have hd := hdev hsr hc hpwr
  refine ⟨hd, ?_⟩
  rw [hd, ← hf]
  exact take_cellsOf_reverse f

/-- A pulse leaves the line low (20_memory R76, R81). -/
theorem shadowAll_pulse (role : Role) (r : Regs) : Regs.shadowAll (pulse role) r = r.setLvl role .low := by
  cases role <;> rfl

/-- STORE on a healthy backend (41_bit_protocol R145). -/
theorem exec_store_healthy {s : State} (hr : ReadyForCommand s) (hh : Healthy 2 s) :
    ∃ t, exec .store s = .next t ∧
      t.regs = { s.regs with
        lastStatus := .ok, doneStatus := .ok, doneValid := true, curOp := 6, relErr := false,
        seq := pulse .stcp, k := 1, lvlStcp := .low } ∧
      (s.dev.pStcp = .zero → t.dev = { s.dev with q := s.dev.sr }) ∧
      t.trace = s.trace ++ okTrace (pulse .stcp) ∧ SameSurroundings s t := by
  have hbusy : s.regs.busy = false := ((cmdReady_iff s).mp hr.1).1
  obtain ⟨t, hexec, hregs, hdev, htrace, hsame⟩ :=
    exec_ready_healthy hr (i := .store) (ts := pulse .stcp) (by decide) rfl rfl (List.cons_ne_nil _ _) hh
  refine ⟨t, hexec, ?_, fun hc => ?_, htrace, hsame⟩
  · rw [hregs, shadowAll_pulse, respond_eq]
    simp [preparedRegs, prepareOf, prepareStore, opcodeOf, pulse, Regs.tick, Regs.atK, Regs.setLvl, hbusy]
  · rw [hdev, transactAll_pulse_stcp _ _ _ hc]

/-- A command that has left its surroundings, `BUSY` and `LIFE` as they were in READY leaves the block ready for the
next one. -/
theorem readyForCommand_of_same {s t : State} (hr : ReadyForCommand s) (hs : SameSurroundings s t)
    (hbusy : t.regs.busy = s.regs.busy) (hlife : t.regs.life = s.regs.life) : ReadyForCommand t := by
  obtain ⟨hready, hl⟩ := hr
  obtain ⟨_, _, hport⟩ := hs
  refine ⟨?_, hlife.trans hl⟩
  rw [State.cmdReady, hbusy, hport]
  exact hready

/-- Settles O49: the load leaves the frame in the register and the block ready (`exec_loadFrame_healthy`), and the
store, from the low store clock the load did not touch, copies the register to the outputs. -/
theorem loadThenStoreShowsFrame : Obligations.LoadThenStoreShowsFrame := by
  unfold Obligations.LoadThenStoreShowsFrame
  intro s f p hr hw hf hp ⟨hsr, _⟩ ⟨hshcp, hstcp, hpwr⟩ hh
  obtain ⟨t, hload, hregs, hdev, _, hsame⟩ := exec_loadFrame_healthy hr hw hf hp hh
  have hd := hdev hsr hshcp hpwr
  refine ⟨t, hload, by rw [hd], fun hh2 => ?_⟩
  have hready : ReadyForCommand t := readyForCommand_of_same hr hsame (by rw [hregs]) (by rw [hregs])
  obtain ⟨u, hstore, huregs, hudev, _, _⟩ := exec_store_healthy hready hh2
  have hwidth : u.regs.width = f.length := by rw [huregs, hf]; simp [Regs.width, hregs]
  refine ⟨u, hstore, by rw [huregs], ?_⟩
  rw [hudev (by rw [hd]; exact hstcp), hwidth, hd]
  exact take_cellsOf_reverse f

end Sys2Proof.Machine

/-! ### CLEAR and the clear phase of RELEASE: 42_clear_release R160 to R163, R166 -/

namespace Sys2Proof.Machine

/-- CLEAR with a power line (42_clear_release R160, R162). -/
theorem clearSeq_power {r : Regs} (hp : r.cfgPwrEn = true) : clearSeq r = powerSeq := if_pos hp

/-- CLEAR without a power line (42_clear_release R160, R161). -/
theorem clearSeq_noPower {r : Regs} (hp : r.cfgPwrEn = false) : clearSeq r = loadSeq (zeros r.width) :=
  if_neg (by simp [hp])

theorem zeros_ne_nil {w : Nat} (hw : 1 ≤ w) : zeros w ≠ [] :=
  List.ne_nil_of_length_pos ((zeros_length w).symm ▸ hw)

/-- Neither strategy of CLEAR is an empty list, the load of zeros at a width from 1 (42_clear_release R160). -/
theorem clearSeq_ne_nil {r : Regs} (hw : r.cfgPwrEn = false → 1 ≤ r.width) : clearSeq r ≠ [] := by
  cases hp : r.cfgPwrEn with
  | true =>
    rw [clearSeq_power hp]
    exact List.cons_ne_nil _ _
  | false =>
    rw [clearSeq_noPower hp]
    exact loadSeq_ne_nil (zeros_ne_nil (hw hp))

/-- The number of transactions of CLEAR (42_clear_release R161, R162). -/
theorem clearSeq_length (r : Regs) : (clearSeq r).length = if r.cfgPwrEn then 5 else 4 * r.width := by
  unfold clearSeq
  split
  · rfl
  · rw [zeroSeq, loadSeq_length, zeros_length]

/-- The load of zeros written out (42_clear_release R161). -/
theorem loadSeq_zeros_eq_flatten (w : Nat) :
    loadSeq (zeros w) = (List.replicate w
      [Txn.write .data false, .write .shcp true, .write .shcp false, .write .data false]).flatten := by
  rw [loadSeq_eq_flatMap, zeros, List.flatMap_replicate]

/-- Either strategy leaves the data line and the shift clock low, and a power line in use high (42_clear_release
R161, R162; 20_memory R81). -/
theorem shadowAll_clearSeq {r : Regs} (hw : r.cfgPwrEn = false → 1 ≤ r.width) (q : Regs) :
    Regs.shadowAll (clearSeq r) q =
      { q with lvlData := .low, lvlShcp := .low, lvlPwr := if r.cfgPwrEn then .high else q.lvlPwr } := by
  cases hp : r.cfgPwrEn with
  | true =>
    rw [clearSeq_power hp]
    rfl
  | false =>
    rw [clearSeq_noPower hp]
    exact shadowAll_loadSeq _ q (zeros_ne_nil (hw hp))

/-- Power off and on again clears the register, from whatever level of the power line; the outputs are as
`PWR_Q_EFFECT` says (20_memory R92). -/
theorem transactAll_powerCycle (pq : PwrQEffect) (d : Device) :
    Device.transactAll pq true [.write .pwr false, .write .pwr true] d =
      { d with
        sr := List.replicate d.sr.length .zero
        q := if pq = .hold then d.q else List.replicate d.q.length .x
        pPwr := .one } := by
  cases pq <;>
    simp [Device.transactAll, Device.transact, Device.drive, Device.event, Device.setLevel, Device.level,
      Device.powerEvent, Device.powerQ, Cell.ofBool, allCells_eq_replicate]

/-- A register of zeros takes in another zero and stays as it is. -/
theorem dropLast_zero_cons_replicate (n : Nat) :
    (Cell.zero :: List.replicate n .zero).dropLast = List.replicate n .zero := by
  rw [← List.replicate_succ, List.dropLast_replicate, Nat.add_sub_cancel]

/-- `PowerSeq` from a low shift clock: the power cycle clears the register, and the pulse shifts a zero into it
(42_clear_release R162). -/
theorem transactAll_powerSeq (pq : PwrQEffect) (d : Device) (hc : d.pShcp = .zero) :
    Device.transactAll pq true powerSeq d =
      { d with
        sr := List.replicate d.sr.length .zero
        q := if pq = .hold then d.q else List.replicate d.q.length .x
        pData := .zero
        pPwr := .one } := by
  have hsplit : powerSeq = [.write .data false] ++ ([.write .pwr false, .write .pwr true] ++ pulse .shcp) := rfl
  have hdata : Device.transactAll pq true [.write .data false] d = { d with pData := .zero } := rfl
  rw [hsplit, transactAll_append, hdata, transactAll_append, transactAll_powerCycle,
    transactAll_pulse_shcp]
  · simp only [dropLast_zero_cons_replicate]
  · exact hc
  · exact fun _ => rfl

/-- A register that holds the zero frame is all zero (00_scope R11). -/
theorem cellsOf_zeros_reverse (w : Nat) : (cellsOf (zeros w)).reverse = List.replicate w .zero := by
  simp [cellsOf, zeros, Cell.ofBool]

/-- Either strategy from a low shift clock leaves an all-zero register, the load of zeros in a register of the
configured width (42_clear_release R163). -/
theorem transactAll_clearSeq (pq : PwrQEffect) {r : Regs} {d : Device}
    (hw : r.cfgPwrEn = false → 1 ≤ r.width ∧ d.sr.length = r.width) (hc : d.pShcp = .zero) :
    Device.transactAll pq r.cfgPwrEn (clearSeq r) d =
      { d with
        sr := List.replicate d.sr.length .zero
        q := if r.cfgPwrEn = true ∧ pq = .unknown then List.replicate d.q.length .x else d.q
        pData := .zero
        pPwr := if r.cfgPwrEn then .one else d.pPwr } := by
  cases hp : r.cfgPwrEn with
  | true =>
    rw [clearSeq_power hp, transactAll_powerSeq pq d hc]
    cases pq <;> simp
  | false =>
    obtain ⟨hw1, hsr⟩ := hw hp
    rw [clearSeq_noPower hp, transactAll_loadSeq_full pq false (hsr.trans (zeros_length _).symm) hc nofun
      (zeros_ne_nil hw1), cellsOf_zeros_reverse, hsr]
    simp

/-- CLEAR on a healthy backend, by either strategy (42_clear_release R160 to R163). -/
theorem exec_clear_healthy {s : State} (hr : ReadyForCommand s) (hw : s.regs.cfgPwrEn = false → 1 ≤ s.regs.width)
    (hh : Healthy (if s.regs.cfgPwrEn then 5 else 4 * s.regs.width) s) :
    ∃ t, exec .clear s = .next t ∧
      t.regs = { s.regs with
        lastStatus := .ok, doneStatus := .ok, doneValid := true, curOp := 7, relErr := false,
        seq := clearSeq s.regs, k := (if s.regs.cfgPwrEn then 5 else 4 * s.regs.width) - 1,
        lvlData := .low, lvlShcp := .low, lvlPwr := if s.regs.cfgPwrEn then .high else s.regs.lvlPwr } ∧
      ((s.regs.cfgPwrEn = false → s.dev.sr.length = s.regs.width) → s.dev.pShcp = .zero →
        t.dev = { s.dev with
          sr := List.replicate s.dev.sr.length .zero
          q := if s.regs.cfgPwrEn = true ∧ s.params.pwrQ = .unknown then List.replicate s.dev.q.length .x
            else s.dev.q
          pData := .zero
          pPwr := if s.regs.cfgPwrEn then .one else s.dev.pPwr }) ∧
      t.trace = s.trace ++ okTrace (clearSeq s.regs) ∧ SameSurroundings s t := by
  have hbusy : s.regs.busy = false := ((cmdReady_iff s).mp hr.1).1
  rw [← clearSeq_length] at hh ⊢
  obtain ⟨t, hexec, hregs, hdev, htrace, hsame⟩ :=
    exec_ready_healthy hr (i := .clear) (ts := clearSeq s.regs) (by decide) rfl rfl (clearSeq_ne_nil hw) hh
  refine ⟨t, hexec, ?_, fun hsr hc => ?_, htrace, hsame⟩
  · rw [hregs, shadowAll_clearSeq hw, respond_eq]
    simp [preparedRegs, prepareOf, prepareClear, opcodeOf, Regs.tick, Regs.atK, hbusy, clearSeq, Regs.width]
  · rw [hdev, transactAll_clearSeq _ (fun hp => ⟨hw hp, hsr hp⟩) hc]

/-- Settles O17: the run of CLEAR (`exec_clear_healthy`) without a power line, where it is the load of zeros
(`clearSeq_noPower`). -/
theorem clearByZerosCompletes : Obligations.ClearByZerosCompletes := by
  unfold Obligations.ClearByZerosCompletes
  intro s hr hp hw hh
  obtain ⟨t, hexec, hregs, hdev, htrace, _⟩ := exec_clear_healthy hr (fun _ => hw) (by simpa [hp] using hh)
  refine ⟨t, hexec, ?_, fun hsr hc => ?_, by rw [htrace, hregs]⟩
  · rw [hregs, clearSeq_noPower hp, loadSeq_zeros_eq_flatten]
    simp [hp]
  · rw [hdev (fun _ => hsr) hc, hsr]
    simp [hp]

/-- Settles O18: the run of CLEAR (`exec_clear_healthy`) with a power line, where it is `PowerSeq`
(`clearSeq_power`). -/
theorem clearByPowerCompletes : Obligations.ClearByPowerCompletes := by
  unfold Obligations.ClearByPowerCompletes
  intro s hr hp hh
  obtain ⟨t, hexec, hregs, hdev, htrace, _⟩ := exec_clear_healthy hr (by simp [hp]) (by simpa [hp] using hh)
  refine ⟨t, hexec, ?_, fun hc => ?_, by rw [htrace, hregs]⟩
  · rw [hregs, clearSeq_power hp]
    simp [powerSeq, hp]
  · rw [hdev (by simp [hp]) hc]
    cases s.params.pwrQ <;> simp [hp]

/-- Settles O50: CLEAR leaves an all-zero register and the block ready (`exec_clear_healthy`), and the store, from
the low store clock CLEAR did not touch, copies the register to the outputs. -/
theorem clearThenStoreShowsZeros : Obligations.ClearThenStoreShowsZeros := by
  unfold Obligations.ClearThenStoreShowsZeros
  intro s hr hw ⟨hsr, hq⟩ ⟨hshcp, hstcp, _⟩ hh
  obtain ⟨t, hclear, hregs, hdev, _, hsame⟩ := exec_clear_healthy hr (fun _ => hw) hh
  have hd := hdev (fun _ => hsr) hshcp
  have htw : t.regs.width = s.regs.width := by rw [hregs]; rfl
  have hsrv : (t.dev.sr.take s.regs.width).reverse = List.replicate s.regs.width .zero := by simp [hd, hsr]
  refine ⟨t, hclear, htw ▸ hsrv, by rw [hd], by rw [hd]; exact hshcp, fun hp => by simp [hd, hp],
    fun hkeep => ?_, fun hp hx => by simp [hd, hp, hx, hq], fun hh2 => ?_⟩
  · have hno : ¬ (s.regs.cfgPwrEn = true ∧ s.params.pwrQ = .unknown) := by
      rintro ⟨hp, hx⟩
      simp [hp, hx] at hkeep
    rw [hd]
    exact if_neg hno
  · have hready : ReadyForCommand t := readyForCommand_of_same hr hsame (by rw [hregs]) (by rw [hregs])
    obtain ⟨u, hstore, huregs, hudev, _, _⟩ := exec_store_healthy hready hh2
    have huw : u.regs.width = s.regs.width := by rw [huregs]; exact htw
    refine ⟨u, hstore, ?_⟩
    rw [hudev (by rw [hd]; exact hstcp), huw]
    exact hsrv

/-- Settles O36: the failed transaction leaves the command in flight at its last transaction
(`answered_err_release`), and the device as after every failed one (`transact_err`). -/
theorem releaseGoesOnAfterClearError : Obligations.ReleaseGoesOnAfterClearError := by
  unfold Obligations.ReleaseGoesOnAfterClearError
  intro s l t hb h8 hseq ht hne
  have hregs : (answerEdge .err s).regs =
      { s.regs.tick.shadow t .err with relErr := true, k := s.regs.seq.length - 1 } := by
    rw [answerEdge_some ((outstanding_eq hb).trans ht)]
    exact answered_err_release h8 hne
  have hbusy : (answerEdge .err s).regs.busy = true := by simpa [hregs] using hb
  refine ⟨hbusy, by rw [hregs], by rw [hregs], ?_, by simp [hregs], ?_, ?_⟩
  · rw [outstanding_eq hbusy]
    simp [hregs, hseq]
  · rw [answerEdge_some ((outstanding_eq hb).trans ht)]
  · rw [answerEdge_some ((outstanding_eq hb).trans ht)]
    exact transact_err _ _ t s.dev

end Sys2Proof.Machine

/-! ### The command stream of a pattern call: 45_host_sequencer R184 to R191 -/

namespace Sys2Proof.Machine

/-- A loop renders one frame for each index (45_host_sequencer R186). -/
@[simp] theorem sweep_length (update : Nat → List Bool → List Bool) (ks : List Nat) (wf : List Bool) :
    (sweep update ks wf).length = ks.length := by
  induction ks generalizing wf with
  | nil => rfl
  | cons k ks ih => simp [sweep, ih]

@[simp] theorem risingFrames_length (w : Nat) : (risingFrames w).length = w := by
  simp [risingFrames]

@[simp] theorem fallingFrames_length (w : Nat) : (fallingFrames w).length = w := by
  simp [fallingFrames]

@[simp] theorem bitRunFrames_length (w : Nat) : (bitRunFrames w).length = w + 1 := by
  simp [bitRunFrames]

@[simp] theorem skipFrames_length (w : Nat) : (skipFrames w).length = w := by
  simp [skipFrames]

@[simp] theorem fillBarActs_length (w : Nat) (persist : Bool) (dir : Dir) (d : Nat) :
    (fillBarActs w persist dir d).length = w := by
  simp [fillBarActs]

/-- A map that goes by the elements alone does not see their indices. -/
theorem map_zipIdx_eq_map {α β : Type} {l : List α} {g : α × Nat → β} {h : α → β}
    (hg : ∀ p ∈ l.zipIdx, g p = h p.1) : l.zipIdx.map g = l.map h := by
  calc l.zipIdx.map g = (l.zipIdx.map Prod.fst).map h := by rw [List.map_map]; exact List.map_congr_left hg
    _ = l.map h := by rw [List.zipIdx_map_fst]

/-- Without `persist` every frame is rendered whole (45_host_sequencer R186). -/
theorem fillBarActs_false (w : Nat) (dir : Dir) (d : Nat) :
    fillBarActs w false dir d = (risingFrames w).map fun f => .renderFrame f dir d :=
  map_zipIdx_eq_map fun _ _ => if_neg (by simp)

/-- With `persist` every frame but the last is rendered whole, and the last one stays lit (45_host_sequencer R186). -/
theorem fillBarActs_true {w : Nat} {fs : List (List Bool)} {last : List Bool} (hfs : risingFrames w = fs ++ [last])
    (dir : Dir) (d : Nat) :
    fillBarActs w true dir d = (fs.map fun f => .renderFrame f dir d) ++ [.renderLit last dir] := by
  have hw : fs.length + 1 = w := by simpa using (congrArg List.length hfs).symm
  rw [fillBarActs, hfs, List.zipIdx_append, List.map_append,
    map_zipIdx_eq_map (l := fs) (h := fun f => .renderFrame f dir d)]
  · simp [hw]
  · intro p hp
    have hlt := List.snd_lt_of_mem_zipIdx hp
    exact if_neg (by omega)

/-- A frame rendered whole takes LOAD_FRAME, STORE, CLEAR and STORE (45_host_sequencer R184). -/
theorem actCmds_renderFrame_length (f : List Bool) (dir : Dir) (d : Nat) :
    (actCmds (.renderFrame f dir d)).length = 4 := rfl

/-- A frame left lit takes LOAD_FRAME and STORE (45_host_sequencer R185). -/
theorem actCmds_renderLit_length (f : List Bool) (dir : Dir) : (actCmds (.renderLit f dir)).length = 2 := rfl

/-- Frames rendered whole take four commands each (45_host_sequencer R184, R191). -/
theorem flatMap_actCmds_renderFrame_length (fs : List (List Bool)) (dir : Dir) (d : Nat) :
    ((fs.map fun f => .renderFrame f dir d).flatMap actCmds).length = 4 * fs.length := by
  induction fs with
  | nil => rfl
  | cons f fs ih =>
    rw [List.map_cons, List.flatMap_cons, List.length_append, ih, actCmds_renderFrame_length, List.length_cons]
    omega

/-- The frame left lit takes two commands less than a whole one (45_host_sequencer R191). -/
theorem flatMap_actCmds_fillBarActs_true_length {w : Nat} (hw : 1 ≤ w) (dir : Dir) (d : Nat) :
    ((fillBarActs w true dir d).flatMap actCmds).length = 4 * (w - 1) + 2 := by
  have hne : risingFrames w ≠ [] := List.ne_nil_of_length_pos ((risingFrames_length w).symm ▸ hw)
  rw [fillBarActs_true (List.dropLast_append_getLast hne).symm, List.flatMap_append, List.length_append,
    flatMap_actCmds_renderFrame_length, List.length_dropLast, risingFrames_length, List.flatMap_singleton,
    actCmds_renderLit_length]

/-- Settles O54: a pattern call renders a frame for each turn of its loops, at four commands each
(`flatMap_actCmds_renderFrame_length`), but two for the frame that a persisting `fillBar` leaves lit
(`flatMap_actCmds_fillBarActs_true_length`). -/
theorem patternCommandCounts : Obligations.PatternCommandCounts := by
  unfold Obligations.PatternCommandCounts
  intro w dir d hw
  have hlit := flatMap_actCmds_fillBarActs_true_length hw dir d
  simp only [patternCmds, patternActs]
  refine ⟨?fillBar, hlit, ?walkthrough, ?barWave, ?bitRun, ?skipAcross,
    fun persist => fillBarActs_length w persist dir d,
    ?framesWalkthrough, ?framesBarWave, ?framesBitRun, ?framesSkipAcross⟩
  case fillBar => rw [fillBarActs_false, flatMap_actCmds_renderFrame_length, risingFrames_length]
  case walkthrough =>
    rw [List.flatMap_append, List.length_append, hlit, flatMap_actCmds_renderFrame_length, fallingFrames_length]
  case barWave =>
    rw [flatMap_actCmds_renderFrame_length, List.length_append, risingFrames_length, fallingFrames_length]
    omega
  case bitRun => rw [flatMap_actCmds_renderFrame_length, bitRunFrames_length]
  case skipAcross => rw [flatMap_actCmds_renderFrame_length, skipFrames_length]
  case framesWalkthrough | framesBarWave => simp [Nat.two_mul]
  case framesBitRun | framesSkipAcross => simp

end Sys2Proof.Machine

/-! ### Admission by the lifecycle: 60_exceptions R222 -/

namespace Sys2Proof.Machine

/-- No command's own checks answer STATE_ERROR: that status is the admission check's alone (60_exceptions R221). -/
theorem ownCheck_ne_stateError (i : Instr) (s : State) : ownCheck i s ≠ .stateError := by
  cases i with
  | init => simp only [ownCheck, configCheck]; split_ifs <;> decide
  | setBit => simp only [ownCheck, checkSetBit]; split_ifs <;> decide
  | loadFrame => simp only [ownCheck, checkLoadFrame]; split_ifs <;> decide
  | shift | clearData | store | clear | release => exact nofun

/-- The table of 60_exceptions R222 by its refusals. -/
theorem admitted_eq_false {op : BitVec 4} {l : Life} :
    admitted op l = false ↔ (op = 1 ∧ l = .ready) ∨ (op ≠ 1 ∧ op ≠ 8 ∧ l ≠ .ready) := by
  by_cases h1 : op = 1#4
  · simp [admitted, h1]
  · by_cases h8 : op = 8#4 <;> simp [admitted, h1, h8]

/-- Validation answers STATE_ERROR to the commands that are not admitted, and to no others (60_exceptions R221). -/
theorem checkAdmitted_ownCheck_eq_stateError {i : Instr} {s : State} :
    checkAdmitted (opcodeOf i) s.regs.life (ownCheck i s) = .stateError ↔
      admitted (opcodeOf i) s.regs.life = false := by
  unfold checkAdmitted
  split_ifs with ha <;> simp [ha, ownCheck_ne_stateError]

/-- The edge at which a command in flight is answered leaves it in flight, or ended with OK or BACKEND_IO (30_encoding
R116, 60_exceptions R225). -/
theorem answerEdge_endStatus {s : State} (hb : s.regs.busy = true) (a : Answer)
    (hend : (answerEdge a s).regs.busy = false) :
    (answerEdge a s).regs.lastStatus = .ok ∨ (answerEdge a s).regs.lastStatus = .backendIo := by
  cases ho : s.regs.outstanding with
  | none => simp [answerEdge_none ho, hb] at hend
  | some t =>
    rw [answerEdge_some ho] at hend ⊢
    dsimp only at hend ⊢
    rcases answered_cases s.regs.tick t a with ⟨_, _, h⟩ | ⟨_, _, h⟩ | ⟨_, _, _, h⟩ | ⟨_, _, h⟩ <;> rw [h] at hend ⊢
    · simp [hb] at hend
    · rw [respond_eq]
      dsimp only
      split_ifs <;> simp
    · simp [hb] at hend
    · exact .inr (by rw [abort_eq])

/-- A command that passes validation and has ended has the status OK or BACKEND_IO (60_exceptions R220). -/
theorem exec_valid_endStatus {i : Instr} {s t : State} (hr : s.cmdReady = true)
    (hc : checkAdmitted (opcodeOf i) s.regs.life (ownCheck i s) = .ok) (h : exec i s = .next t)
    (hend : t.regs.busy = false) : t.regs.lastStatus = .ok ∨ t.regs.lastStatus = .backendIo := by
  rw [exec_eq_issue] at h
  refine issue_keeps (P := fun u => u.regs.busy = false → u.regs.lastStatus = .ok ∨ u.regs.lastStatus = .backendIo)
    hr h ?accepted (fun u hu => hu) (fun a u hb _ => answerEdge_endStatus (s := u.popRsp) hb a) hend
  rw [acceptOf_ok hc]
  dsimp only
  split_ifs
  · exact fun _ => .inl (by rw [respond_eq])
  · exact nofun

/-- An admitted command has a next state, and has not ended there with STATE_ERROR: it failed a check of its own, or
passed validation. -/
theorem exec_admitted_ne_stateError {i : Instr} {s : State} (hr : s.cmdReady = true)
    (ha : admitted (opcodeOf i) s.regs.life = true) :
    ∃ t, exec i s = .next t ∧ (t.regs.busy = false → t.regs.lastStatus ≠ .stateError) := by
  by_cases hc : checkAdmitted (opcodeOf i) s.regs.life (ownCheck i s) = .ok
  · have hrun := (exec_eq_issue i s).trans (issue_ready _ hr)
    refine ⟨_, hrun, fun hend hs => ?_⟩
    simpa [hs] using exec_valid_endStatus hr hc hrun hend
  · refine ⟨_, exec_invalid hr hc, fun _ hs => ?_⟩
    simp [checkAdmitted_ownCheck_eq_stateError.mp hs] at ha

/-- Settles O7: the listed commands are those not admitted (`admitted_eq_false`), which validation refuses with
STATE_ERROR; no check or end of an admitted command answers that (`exec_admitted_ne_stateError`). -/
theorem admissionByLifecycle : Obligations.AdmissionByLifecycle := by
  unfold Obligations.AdmissionByLifecycle
  intro s i hr
  simp only [ne_eq, rowOf_eq_initRow, rowOf_eq_releaseRow]
  rw [← admitted_eq_false]
  refine ⟨fun hrefused => ?_, fun hadm => exec_admitted_ne_stateError hr (by simpa using hadm)⟩
  have hcode := checkAdmitted_ownCheck_eq_stateError.mpr hrefused
  have hexec := exec_invalid hr (i := i) (by rw [hcode]; decide)
  rw [hcode] at hexec
  exact ⟨_, hexec, rfl, rfl, rfl⟩

end Sys2Proof.Machine

/-! ### The priority of a clock edge: 60_exceptions R223, R229 -/

namespace Sys2Proof.Machine

/-- An edge while `BUSY = 0` does not read the answer port (60_exceptions R223, R229). -/
theorem clockEdge_idle (inp : Inputs) {s : State} (hb : s.regs.busy = false) :
    clockEdge inp s =
      if inp.rstN = false then resetEdge s
      else if inp.cmdValid then acceptCommand inp.cmdHdr inp.cmdFrame s
      else quietEdge s := by
  simp [clockEdge, hb]

/-- An edge while `BUSY = 1` does not read the command port (60_exceptions R223, R229). -/
theorem clockEdge_busy (inp : Inputs) {s : State} (hb : s.regs.busy = true) :
    clockEdge inp s =
      if inp.rstN = false then resetEdge s
      else if inp.rspValid then answerEdge (if inp.rspErr then .err else .ok) s
      else quietEdge s := by
  simp [clockEdge, hb]

/-- An edge with nothing to accept and no answer to take moves `DONE_VALID` alone of the block (30_encoding R116). -/
theorem clockEdge_quiet {inp : Inputs} {s : State} (hr : inp.rstN = true)
    (hq : (s.regs.busy = false ∧ inp.cmdValid = false) ∨ (s.regs.busy = true ∧ inp.rspValid = false)) :
    clockEdge inp s = quietEdge s := by
  rcases hq with ⟨hb, hv⟩ | ⟨hb, hv⟩
  · simp [clockEdge_idle inp hb, hr, hv]
  · simp [clockEdge_busy inp hb, hr, hv]

/-- Settles O47: by what an edge is while `BUSY = 0` (`clockEdge_idle`) and while `BUSY = 1` (`clockEdge_busy`). -/
theorem clockEdgePriority : Obligations.ClockEdgePriority := by
  unfold Obligations.ClockEdgePriority
  intro s inp
  refine ⟨fun hr => ?reset, fun hr hb hv => ?accept, fun hr hb hv => ?answer, fun hr hq => ?quiet,
    fun hb valid err => ?answerPort, fun hb valid hdr frame => ?commandPort⟩
  case reset => rw [clockEdge, if_pos hr, resetEdge_regs]
  case accept => simp [clockEdge_idle inp hb, hr, hv]
  case answer => simp [clockEdge_busy inp hb, hr, hv]
  case quiet =>
    rw [clockEdge_quiet hr hq]
    exact ⟨rfl, rfl, rfl⟩
  case answerPort => rw [clockEdge_idle _ hb, clockEdge_idle _ hb]
  case commandPort => rw [clockEdge_busy _ hb, clockEdge_busy _ hb]

end Sys2Proof.Machine

/-! ### An edge in reset: 70_reset_and_hazards R250, R253 -/

namespace Sys2Proof.Machine

/-- While `RST_N = 0` a step is one edge in reset, which has priority over all else (60_exceptions R223). -/
theorem step_in_reset {s : State} (hl : 0 < s.port.rstLow) : step s = .next (resetEdge s) := by
  simp [step, hl]

/-- While `RST_N = 0` no command is accepted (70_reset_and_hazards R253). -/
theorem cmdReady_in_reset {s : State} (hl : 0 < s.port.rstLow) : s.cmdReady = false := by
  simp [State.cmdReady, hl.ne']

/-- After an edge in reset the block is idle, so `CMD_READY` follows the pin (70_reset_and_hazards R253). -/
theorem cmdReady_resetEdge (s : State) : (resetEdge s).cmdReady = true ↔ s.port.rstLow ≤ 1 := by
  rw [cmdReady_iff, resetEdge_regs, resetEdge_port]
  simp [Regs.reset, Nat.sub_eq_zero_iff_le]

/-- Settles O29: the step is the edge in reset (`step_in_reset`), which leaves `Regs.reset`, with the words of
`reset_words` and nothing outstanding. -/
theorem resetEdgeValues : Obligations.ResetEdgeValues := by
  unfold Obligations.ResetEdgeValues
  intro s hl
  obtain ⟨hstatus, hcfg, hwarn⟩ := reset_words s.params.wmax
  refine ⟨cmdReady_in_reset hl, resetEdge s, step_in_reset hl, ?registers, ?status, ?cfgWord, ?request, ?warn,
    fun h1 => (cmdReady_resetEdge s).mpr h1.le⟩
  case registers => rfl
  case status => rw [resetEdge_regs, hstatus]
  case cfgWord => rw [resetEdge_regs, hcfg]
  case request => rw [resetEdge_regs, request_idle rfl]; rfl
  case warn => rw [resetEdge_regs, hwarn]

end Sys2Proof.Machine

/-! ### The decoder and the encoder: 30_encoding R100 to R112 -/

namespace Sys2Proof

/-- The command of `i`'s row whose operands are read from a header and a payload (30_encoding R101, R109). -/
def readOperands (i : Instr) (h : Header) (p : Payload) : Instr :=
  match i with
  | .init _ _ _ _ _ _ _ =>
    .init (pwrEnOf h) (warnOf h) (countOf h) (dataLineOf h) (stcpLineOf h) (shcpLineOf h) (pwrLineOf h)
  | .setBit _ => .setBit (bsymOf h)
  | .loadFrame _ _ => .loadFrame (countOf h) p
  | .shift | .clearData | .store | .clear | .release => i

theorem rowOf_mem_opcodeTable (i : Instr) : rowOf i ∈ opcodeTable := by
  cases i <;> simp [rowOf, opcodeTable]

@[simp] theorem rowOf_readOperands (i : Instr) (h : Header) (p : Payload) : rowOf (readOperands i h p) = rowOf i := by
  cases i <;> rfl

theorem fitsRow_iff {row : OpRow} {h : Header} : fitsRow row h = true ↔ h &&& row.mask = row.pattern := by
  simp [fitsRow]

/-- Every mask holds the opcode field (30_encoding R109), so a header that fits a row carries its opcode. -/
theorem opOf_of_fitsRow {row : OpRow} (hrow : row ∈ opcodeTable) {h : Header} (hf : fitsRow row h = true) :
    opOf h = opOf row.pattern := by
  have hmasks : ∀ row ∈ opcodeTable, opOf row.mask = BitVec.allOnes 4 := by decide
  calc opOf h = opOf h &&& opOf row.mask := by rw [hmasks row hrow, BitVec.and_allOnes]
    _ = opOf row.pattern := by rw [← fitsRow_iff.mp hf]; exact BitVec.extractLsb'_and.symm

/-- The rows of the opcode map have different opcodes, so a header fits one of them at most (30_encoding R110). -/
theorem fitsRow_eq_decide {row other : OpRow} (hrow : row ∈ opcodeTable) {h : Header} (hf : fitsRow row h = true)
    (hother : other ∈ opcodeTable) : fitsRow other h = decide (other = row) := by
  have hinj : ∀ a ∈ opcodeTable, ∀ b ∈ opcodeTable, opOf a.pattern = opOf b.pattern → a = b := by decide
  by_cases he : other = row
  · simp [he, hf]
  · have hno : ¬ fitsRow other h = true := fun hg =>
      he (hinj other hother row hrow ((opOf_of_fitsRow hother hg).symm.trans (opOf_of_fitsRow hrow hf)))
    simpa [he] using hno

/-- A header that fits a row is decoded by that row (30_encoding R109). -/
theorem decode_of_fitsRow {i : Instr} {h : Header} (p : Payload) (hf : fitsRow (rowOf i) h = true) :
    decode h p = .ok (readOperands i h p) := by
  have fits := fun other => fitsRow_eq_decide (other := other) (rowOf_mem_opcodeTable i) hf
  simp only [opcodeTable, List.forall_mem_cons] at fits
  obtain ⟨hinit, hset, hshift, hdata, hload, hstore, hclear, hrelease, -⟩ := fits
  simp only [decode, hinit, hset, hshift, hdata, hload, hstore, hclear, hrelease]
  cases i <;> rfl

/-- What the decoder answers, answers by a row that the header fits (30_encoding R109). -/
theorem decode_eq_ok_iff {h : Header} {p : Payload} {i : Instr} :
    decode h p = .ok i ↔ fitsRow (rowOf i) h = true ∧ readOperands i h p = i := by
  constructor
  · intro hd
    unfold decode at hd
    split_ifs at hd with h1 h2 h3 h4 h5 h6 h7 h8 <;> obtain rfl := Except.ok.inj hd <;> exact ⟨‹_›, rfl⟩
  · rintro ⟨hf, hi⟩
    rw [decode_of_fitsRow p hf, hi]

/-- A header is rejected exactly when it fits no row (30_encoding R109, R111). -/
theorem decode_rejects_iff {h : Header} {p : Payload} :
    (∃ e, decode h p = .error e) ↔ ∀ row ∈ opcodeTable, fitsRow row h = false := by
  constructor
  · rintro ⟨e, he⟩ row hrow
    have hcmd : ∀ row ∈ opcodeTable, ∃ i, rowOf i = row := by
      simp only [opcodeTable, List.forall_mem_cons]
      exact ⟨⟨.init false false 0 0 0 0 0, rfl⟩, ⟨.setBit 0, rfl⟩, ⟨.shift, rfl⟩, ⟨.clearData, rfl⟩,
        ⟨.loadFrame 0 0, rfl⟩, ⟨.store, rfl⟩, ⟨.clear, rfl⟩, ⟨.release, rfl⟩, nofun⟩
    obtain ⟨i, rfl⟩ := hcmd row hrow
    by_contra hf
    rw [decode_of_fitsRow p (by simpa using hf)] at he
    cases he
  · intro hf
    cases hd : decode h p with
    | error e => exact ⟨e, rfl⟩
    | ok i => simp [decode_eq_ok_iff, hf _ (rowOf_mem_opcodeTable i)] at hd

/-- Every encoded header fits its row (30_encoding R109). -/
theorem encode_fitsRow (i : Instr) : fitsRow (rowOf i) (encode i).1 = true := by
  cases i with
  | init => exact (Laws.EncodedHeaderFits.init ..).1
  | setBit => exact (Laws.EncodedHeaderFits.setBit ..).1
  | shift => exact Laws.EncodedHeaderFits.shift.1
  | clearData => exact Laws.EncodedHeaderFits.clearData.1
  | loadFrame => exact (Laws.EncodedHeaderFits.loadFrame ..).1
  | store => exact Laws.EncodedHeaderFits.store.1
  | clear => exact Laws.EncodedHeaderFits.clear.1
  | release => exact Laws.EncodedHeaderFits.release.1

/-- An encoded header read back with a payload: the command, with that payload if it takes one (30_encoding R101). -/
theorem decode_encode_fst {i : Instr} {p : Payload} (hp : ∀ len q, i = .loadFrame len q → p = q) :
    decode (encode i).1 p = .ok i := by
  rw [decode_eq_ok_iff]
  refine ⟨encode_fitsRow i, ?_⟩
  cases i with
  | init => simp [readOperands, encode]
  | setBit => simp [readOperands, encode]
  | loadFrame len q => simp [readOperands, encode, hp len q rfl]
  | shift | clearData | store | clear | release => rfl

/-- A command decodes from its own encoding. -/
@[simp] theorem decode_encode (i : Instr) : decode (encode i).1 (encode i).2 = .ok i :=
  decode_encode_fst (by rintro len q rfl; rfl)

/-- A payload with nothing above the wires of the bus passes it unchanged (30_encoding R100). -/
theorem busPayload_of_lt {wmax : Nat} {p : Payload} (h : p.toNat < 2 ^ (2 * wmax)) : busPayload wmax p = p := by
  rw [busPayload, Nat.mod_eq_of_lt h, BitVec.ofNat_toNat, BitVec.setWidth_eq]

/-- Settles O2: the encoded header fits the command's row and its fields read back (`decode_encode_fst`); a
well-formed payload passes the bus (`busPayload_of_lt`). -/
theorem encodedCommandDecodes : Obligations.EncodedCommandDecodes := by
  unfold Obligations.EncodedCommandDecodes
  intro wmax i hi
  refine decode_encode_fst ?_
  rintro len q rfl
  exact busPayload_of_lt (of_decide_eq_true hi)

/-- A bit that the mask of a row holds is the bit of the row's pattern (30_encoding R109). -/
theorem getLsbD_of_fitsRow {row : OpRow} {h : Header} (hf : fitsRow row h = true) {n : Nat}
    (hm : row.mask.getLsbD n = true) : h.getLsbD n = row.pattern.getLsbD n := by
  rw [← fitsRow_iff.mp hf, BitVec.getLsbD_and, hm, Bool.and_true]

/-- The operands read from a header that fits the row encode to that header (30_encoding R110). -/
theorem encode_readOperands {i : Instr} {h : Header} (p : Payload) (hf : fitsRow (rowOf i) h = true) :
    (encode (readOperands i h p)).1 = h := by
  have full {row : OpRow} (hm : row.mask = BitVec.allOnes 64) (hf : fitsRow row h = true) : row.pattern = h := by
    rw [← fitsRow_iff.mp hf, hm, BitVec.and_allOnes]
  cases i with
  | init | setBit | loadFrame =>
    apply BitVec.eq_of_getLsbD_eq
    intro n hn
    have hbit := getLsbD_of_fitsRow hf (n := n)
    simp only [encode, readOperands, headerWord_getLsbD]
    -- a bit of an operand is read from the header; every other bit is held by the mask
    interval_cases n <;>
      simp [rowOf, initRow, setBitRow, loadFrameRow, pwrEnOf, warnOf, countOf, dataLineOf, stcpLineOf, shcpLineOf,
        pwrLineOf, bsymOf] at hbit ⊢ <;>
      exact hbit
  | shift | clearData | store | clear | release => exact full (by decide) hf

/-- Settles O3: what decodes fits the command's row with its operands (`decode_eq_ok_iff`), which encode to the header
(`encode_readOperands`). -/
theorem decodedHeaderReencodes : Obligations.DecodedHeaderReencodes := by
  unfold Obligations.DecodedHeaderReencodes
  intro h p i hd
  obtain ⟨hf, hi⟩ := decode_eq_ok_iff.mp hd
  refine ⟨by rw [← hi, encode_readOperands p hf], ?_⟩
  rintro len q rfl
  exact (Instr.loadFrame.inj hi).2.symm

/-- Settles O4: a header is rejected when it fits no row (`decode_rejects_iff`), and a row that it fits is that of its
opcode (`opOf_of_fitsRow`), which is one of 0x1 to 0x8. -/
theorem illegalHeaders : Obligations.IllegalHeaders := by
  unfold Obligations.IllegalHeaders
  intro h p
  rw [decode_rejects_iff]
  constructor
  · intro hf
    exact .inr fun row hrow _ hh => absurd (fitsRow_iff.mpr hh) (by simp [hf row hrow])
  · rintro (hop | hrows) row hrow <;> by_contra hfit
    · have hlegal : ∀ row ∈ opcodeTable,
          opOf row.pattern ∉ [0x0#4, 0x9#4, 0xA#4, 0xB#4, 0xC#4, 0xD#4, 0xE#4, 0xF#4] := by decide
      exact hlegal row hrow (opOf_of_fitsRow hrow (by simpa using hfit) ▸ hop)
    · have hfit : fitsRow row h = true := by simpa using hfit
      exact hrows row hrow (opOf_of_fitsRow hrow hfit).symm (fitsRow_iff.mp hfit)

/-- Settles O1: each header is decoded by evaluation. -/
theorem specHeadersDecode : Obligations.SpecHeadersDecode := by
  unfold Obligations.SpecHeadersDecode
  decide +kernel

end Sys2Proof

/-! ### The payload of a frame, and the assembler's lines: 30_encoding R103, R108, R118, R119 -/

namespace Sys2Proof.Machine

/-- The symbol of the first element (30_encoding R108). -/
theorem payloadSym_cons_zero (b : Bool) (f : List Bool) :
    payloadSym (payloadOf (b :: f)) 0 = if b then 0b01#2 else 0b00#2 := by
  apply BitVec.eq_of_getLsbD_eq
  intro n hn
  cases b <;> interval_cases n <;> simp [payloadSym, payloadOf]

/-- The symbols of the other elements stand two bits higher, as far as there are wires (30_encoding R108). -/
theorem payloadSym_cons_succ (b : Bool) (f : List Bool) {i : Nat} (hi : i < 254) :
    payloadSym (payloadOf (b :: f)) (i + 1) = payloadSym (payloadOf f) i := by
  apply BitVec.eq_of_getLsbD_eq
  intro n hn
  have h1 : 2 * (i + 1) + n < 510 := by omega
  have h2 : ¬ 2 * (i + 1) + n ≤ 1 := by omega
  have h3 : 2 * (i + 1) + n - 2 = 2 * i + n := by omega
  have h4 : 2 * i + n < 510 := by omega
  cases b <;> simp [payloadSym, payloadOf, hn, h1, h2, h3, BitVec.getLsbD_eq_getElem h4]

/-- The wires end above symbol 254 (30_encoding R100). -/
theorem payloadSym_above (p : Payload) {i : Nat} (hi : 255 ≤ i) : payloadSym p i = 0b00#2 := by
  apply BitVec.eq_of_getLsbD_eq
  intro n hn
  have h : 510 ≤ 2 * i + n := by omega
  simp [payloadSym, hn, BitVec.getLsbD_of_ge p _ h]

/-- Symbol `i` of the payload of a frame is its element `i`, and 0 beyond the frame (30_encoding R103, R108). -/
theorem payloadSym_payloadOf {f : List Bool} (hf : f.length ≤ 255) (i : Nat) :
    payloadSym (payloadOf f) i = if f.getD i false then 0b01#2 else 0b00#2 := by
  induction f generalizing i with
  | nil => simp [payloadSym, payloadOf]
  | cons b f ih =>
    rw [List.length_cons] at hf
    cases i with
    | zero => exact payloadSym_cons_zero b f
    | succ i =>
      by_cases hi : i < 254
      · rw [payloadSym_cons_succ b f hi, ih (by omega), List.getD_cons_succ]
      · rw [payloadSym_above _ (by omega), List.getD_eq_default _ _ (by simp; omega)]
        rfl

/-- The payload of a frame carries it (30_encoding R108). -/
theorem carriesFrame_payloadOf {f : List Bool} (hf : f.length ≤ 255) : CarriesFrame f (payloadOf f) := by
  intro i hi
  rw [payloadSym_payloadOf hf, List.getD_eq_getElem _ _ hi]

/-- Encoded commands decode to themselves. -/
theorem decodeTo_encode (is : List Instr) : DecodeTo (is.map encode) is := by
  simp [DecodeTo]

/-- `LOAD_FRAME F` decodes to a load of the frame (30_encoding R105, R108). -/
theorem decodeToLoad_loadInstr {f : List Bool} (hf : f.length ≤ 255) : DecodeToLoad [encode (loadInstr f)] f := by
  refine ⟨BitVec.ofNat 8 f.length, payloadOf f, decodeTo_encode [_], ?_, carriesFrame_payloadOf hf, fun i hi => ?_⟩
  · simp; omega
  · rw [payloadSym_payloadOf hf, List.getD_eq_default _ _ hi]
    rfl

/-- Settles O60: each line is a list of encoded commands (`decodeTo_encode`), a load among them one of its frame
(`decodeToLoad_loadInstr`). -/
theorem assembledLinesDecode : Obligations.AssembledLinesDecode := by
  unfold Obligations.AssembledLinesDecode
  intro w
  refine ⟨?init, fun v => decodeTo_encode [_], decodeTo_encode [_], decodeTo_encode [_],
    fun f hf => decodeToLoad_loadInstr hf, decodeTo_encode [_], decodeTo_encode [_], decodeTo_encode [_],
    fun h p => rfl, fun v => decodeTo_encode [_, _, _],
    fun f hf => ⟨_, _, rfl, decodeToLoad_loadInstr hf, decodeTo_encode [_]⟩,
    fun hw => decodeToLoad_loadInstr (by simpa [zeros] using hw), decodeTo_encode [_, _],
    fun _ _ _ _ _ _ _ => ⟨rfl, rfl⟩, ?width⟩
  case init =>
    intro d st sh pwr width warn
    have hsome : decide (pwr ≠ none) = pwr.isSome := by cases pwr <;> rfl
    rw [hsome]
    exact decodeTo_encode [_]
  case width =>
    intro l ls hl
    cases l with
    | init d st sh pwr width warn => exact absurd rfl (hl d st sh pwr width warn)
    | _ => rfl

end Sys2Proof.Machine

/-! ### The edges of a command, case by case: 30_encoding R114, R116, R117 -/

namespace Sys2Proof.Machine

/-- The transaction at `K` is outstanding at an edge of a command in flight. -/
theorem outstanding_popRsp {s : State} {t : Txn} (hb : s.regs.busy = true) (ht : s.regs.seq[s.regs.k]? = some t) :
    s.popRsp.regs.outstanding = some t := (outstanding_eq hb).trans ht

section AnswerEdge

variable {s : State} {t : Txn} (hb : s.regs.busy = true) (ht : s.regs.seq[s.regs.k]? = some t) (a : Answer)

include hb ht

/-- The registers after an answered edge (30_encoding R116). -/
theorem answerEdge_popRsp_regs : (answerEdge a s.popRsp).regs = s.regs.tick.answered t a := by
  rw [answerEdge_some (outstanding_popRsp hb ht)]
  rfl

/-- The device after it (20_memory R89). -/
theorem answerEdge_popRsp_dev :
    (answerEdge a s.popRsp).dev = s.dev.transact s.params.pwrQ s.regs.cfgPwrEn t a := by
  rw [answerEdge_some (outstanding_popRsp hb ht)]
  rfl

/-- The trace after it (20_memory R77). -/
theorem answerEdge_popRsp_trace : (answerEdge a s.popRsp).trace = s.trace ++ [(t, a)] := by
  rw [answerEdge_some (outstanding_popRsp hb ht)]
  rfl

end AnswerEdge

/-- A command that goes on after an answer still points into its transactions (10_state R48). -/
theorem answered_pointing {r : Regs} {t : Txn} (ht : r.seq[r.k]? = some t) (a : Answer)
    (hb : (r.answered t a).busy = true) : (r.answered t a).k < (r.answered t a).seq.length := by
  have hk : r.k < r.seq.length := (List.getElem?_eq_some_iff.mp ht).1
  rcases answered_cases r t a with ⟨_, hn, h⟩ | ⟨_, _, h⟩ | ⟨_, _, _, h⟩ | ⟨_, _, h⟩ <;> rw [h] at hb ⊢
  · simpa using hn
  · simp [respond_eq] at hb
  · simp; omega
  · simp [abort_eq] at hb

/-- How the edges of a command relate its state before and after, by what the next edge is: none, the command being
over or the fuel spent; one without an answer; one whose answer ends the command; one after which it goes on. -/
theorem runAnswers_induct {M : State → State → Prop} (stop : ∀ s, M s s)
    (quiet : ∀ s, s.regs.busy = true → M s (quietEdge s.popRsp))
    (last : ∀ s t a, s.regs.busy = true → s.regs.seq[s.regs.k]? = some t →
      (answerEdge a s.popRsp).regs.busy = false → M s (answerEdge a s.popRsp))
    (more : ∀ s t a u, s.regs.busy = true → s.regs.seq[s.regs.k]? = some t →
      (answerEdge a s.popRsp).regs.busy = true → M (answerEdge a s.popRsp) u → M s u)
    (n : Nat) (s : State) (hk : s.regs.busy = true → s.regs.k < s.regs.seq.length) : M s (runAnswers n s) := by
  induction n generalizing s with
  | zero => exact stop s
  | succ n ih =>
    cases hb : s.regs.busy with
    | false => rw [runAnswers_idle _ hb]; exact stop s
    | true =>
      cases hr : s.nextRsp with
      | none => rw [runAnswers_succ_none n hb hr]; exact quiet s hb
      | some a =>
        have ht := List.getElem?_eq_getElem (hk hb)
        rw [runAnswers_succ_some n hb hr]
        cases hb' : (answerEdge a s.popRsp).regs.busy with
        | false => rw [runAnswers_idle _ hb']; exact last s _ a hb ht hb'
        | true =>
          refine more s _ a _ hb ht hb' (ih _ fun hb' => ?_)
          rw [answerEdge_popRsp_regs hb ht a] at hb' ⊢
          exact answered_pointing (r := s.regs.tick) ht a hb'

/-- A command that has passed validation and has transactions to issue, right after its acceptance. -/
def started (i : Instr) (s : State) : State :=
  { s with
    regs := { preparedRegs i s with k := 0, busy := true }
    port := { s.port with cmdValid := false }
    cycle := s.cycle + 1 }

/-- A command that has passed validation and has nothing to issue, which is its end (30_encoding R114). -/
def concluded (i : Instr) (s : State) : State :=
  { s with
    regs := ({ preparedRegs i s with k := 0 } : Regs).respond .ok
    port := { s.port with cmdValid := false }
    cycle := s.cycle + 1 }

/-- What a presented command comes to: it is refused, or has nothing to issue, or its edges run (30_encoding R114). -/
theorem exec_cases {i : Instr} {s t : State} (hr : s.cmdReady = true) (h : exec i s = .next t) :
    (checkAdmitted (opcodeOf i) s.regs.life (ownCheck i s) ≠ .ok ∧
      t = refusedWith (checkAdmitted (opcodeOf i) s.regs.life (ownCheck i s)) s) ∨
    (checkAdmitted (opcodeOf i) s.regs.life (ownCheck i s) = .ok ∧ (preparedRegs i s).seq = [] ∧
      t = concluded i s) ∨
    (checkAdmitted (opcodeOf i) s.regs.life (ownCheck i s) = .ok ∧ (preparedRegs i s).seq ≠ [] ∧
      t = runAnswers (preparedRegs i s).seq.length (started i s)) := by
  by_cases hc : checkAdmitted (opcodeOf i) s.regs.life (ownCheck i s) = .ok
  · rw [exec_eq_issue, issue_ready _ hr, acceptOf_ok hc, Host.Outcome.next.injEq] at h
    by_cases hs : (preparedRegs i s).seq = []
    · rw [if_pos hs, runAnswers_idle _ (by rw [respond_eq])] at h
      exact .inr (.inl ⟨hc, hs, h.symm⟩)
    · rw [if_neg hs] at h
      exact .inr (.inr ⟨hc, hs, h.symm⟩)
  · rw [exec_invalid hr hc] at h
    exact .inl ⟨hc, (Host.Outcome.next.inj h).symm⟩

/-- A started command points at the first of its transactions. -/
theorem started_pointing {i : Instr} {s : State} (hs : (preparedRegs i s).seq ≠ []) :
    (started i s).regs.k < (started i s).regs.seq.length := List.length_pos_iff.mpr hs

/-! ### What every command leaves (log entry 3) -/

/-- The edges of a command in flight move nothing outside the block and its device. -/
theorem runAnswers_surroundings (n : Nat) (s : State) :
    (runAnswers n s).host = s.host ∧ (runAnswers n s).params = s.params ∧ (runAnswers n s).port = s.port := by
  refine runAnswers_keeps (P := fun u => u.host = s.host ∧ u.params = s.params ∧ u.port = s.port) ?_ ?_ n s
    ⟨rfl, rfl, rfl⟩
  · exact fun u h => h
  · intro a u _ h
    simpa using h

/-- A presented command moves nothing outside the block and its device but the command off the port. -/
theorem exec_sameSurroundings {i : Instr} {s t : State} (hr : s.cmdReady = true) (h : exec i s = .next t) :
    SameSurroundings s t := by
  rcases exec_cases hr h with ⟨_, rfl⟩ | ⟨_, _, rfl⟩ | ⟨_, _, rfl⟩
  · exact ⟨rfl, rfl, rfl⟩
  · exact ⟨rfl, rfl, rfl⟩
  · exact runAnswers_surroundings _ (started i s)

/-- The registers that are written at acceptance alone (10_state R37 to R47). -/
def Regs.latched (r : Regs) : (LineId × LineId × LineId × LineId × Bool × BitVec 8 × Bool) × List Bool × Bool ×
    BitVec 4 × List Txn :=
  (r.configRegs, r.fbuf, r.curBit, r.curOp, r.seq)

theorem latched_eq_iff {r r' : Regs} :
    r'.latched = r.latched ↔
      SameConfig r r' ∧ r'.fbuf = r.fbuf ∧ r'.curBit = r.curBit ∧ r'.curOp = r.curOp ∧ r'.seq = r.seq := by
  simp only [Regs.latched, Prod.mk.injEq, sameConfig_iff]

@[simp] theorem respond_latched (c : Status) (r : Regs) : (r.respond c).latched = r.latched := by
  rw [respond_eq]; rfl

@[simp] theorem abort_latched (c : Status) (r : Regs) : (r.abort c).latched = r.latched := by
  rw [abort_eq]; rfl

@[simp] theorem shadow_latched (t : Txn) (a : Answer) (r : Regs) : (r.shadow t a).latched = r.latched := by
  simp [Regs.latched]

/-- The edges of a command in flight write none of them. -/
@[simp] theorem runAnswers_latched (n : Nat) (s : State) : (runAnswers n s).regs.latched = s.regs.latched :=
  runAnswers_keeps_field Regs.latched (fun r t a => shadow_latched t a r) (fun r c => respond_latched c r)
    (fun r c => abort_latched c r) (fun _ _ => rfl) (fun _ => rfl) (fun _ _ => rfl) n s

/-- A command that passes validation leaves them as its `Prepare` wrote them. -/
theorem exec_latched {i : Instr} {s t : State} (hr : s.cmdReady = true) (h : exec i s = .next t) :
    (checkAdmitted (opcodeOf i) s.regs.life (ownCheck i s) ≠ .ok ∧ t.regs.latched = s.regs.latched) ∨
    (checkAdmitted (opcodeOf i) s.regs.life (ownCheck i s) = .ok ∧
      t.regs.latched = (preparedRegs i s).latched) := by
  rcases exec_cases hr h with ⟨hc, rfl⟩ | ⟨hc, _, rfl⟩ | ⟨hc, _, rfl⟩
  · exact .inl ⟨hc, rfl⟩
  · exact .inr ⟨hc, respond_latched _ _⟩
  · exact .inr ⟨hc, runAnswers_latched _ _⟩

/-- The configuration, the frame latch and the bit latch after a command, given what its `Prepare` makes of them. -/
theorem exec_latches {i : Instr} {s t : State} (hr : s.cmdReady = true) (h : exec i s = .next t)
    (hcfg : SameConfig s.regs (preparedRegs i s)) :
    SameConfig s.regs t.regs ∧
      (t.regs.fbuf = s.regs.fbuf ∨ t.regs.fbuf = (preparedRegs i s).fbuf) ∧
      (t.regs.curBit = s.regs.curBit ∨ t.regs.curBit = (preparedRegs i s).curBit) := by
  rcases exec_latched hr h with ⟨_, hl⟩ | ⟨_, hl⟩ <;> obtain ⟨hc, hf, hb, _⟩ := latched_eq_iff.mp hl
  · exact ⟨hc, .inl hf, .inl hb⟩
  · rw [sameConfig_iff] at *
    exact ⟨hc.trans hcfg, .inr hf, .inr hb⟩

end Sys2Proof.Machine

/-! ### The frames of the commands: 40_init, 41_bit_protocol, 42_clear_release -/

namespace Sys2Proof.Machine

/-- The registers of the lifecycle, of a command that is neither INIT nor RELEASE (30_encoding R116). -/
def Regs.heldLife (r : Regs) : BitVec 4 × Option (Life × Bool) :=
  (r.curOp, if r.curOp = 1 ∨ r.curOp = 8 then none else some (r.life, r.claimed))

theorem respond_heldLife (c : Status) (r : Regs) : (r.respond c).heldLife = r.heldLife := by
  rw [respond_eq]
  by_cases h1 : r.curOp = 1#4 <;> by_cases h8 : r.curOp = 8#4 <;> simp [Regs.heldLife, h1, h8]

theorem abort_heldLife (c : Status) (r : Regs) : (r.abort c).heldLife = r.heldLife := by
  rw [abort_eq]
  by_cases h1 : r.curOp = 1#4 <;> simp [Regs.heldLife, h1]

theorem runAnswers_heldLife (n : Nat) (s : State) : (runAnswers n s).regs.heldLife = s.regs.heldLife :=
  runAnswers_keeps_field Regs.heldLife (fun r t a => by simp [Regs.heldLife]) (fun r c => respond_heldLife c r)
    (fun r c => abort_heldLife c r) (fun _ _ => rfl) (fun _ => rfl) (fun _ _ => rfl) n s

theorem heldLife_eq {r r' : Regs} (h : r'.heldLife = r.heldLife) (h1 : r.curOp ≠ 1) (h8 : r.curOp ≠ 8) :
    r'.life = r.life ∧ r'.claimed = r.claimed := by
  obtain ⟨hop, hl⟩ := Prod.mk.inj h
  have hno : ¬ (r.curOp = 1 ∨ r.curOp = 8) := by tauto
  rw [hop, if_neg hno, if_neg hno] at hl
  simpa using hl

/-- Only `Prepare` of INIT claims lines (40_init R132). -/
theorem preparedRegs_claimed {i : Instr} (hi : opcodeOf i ≠ 1) (s : State) :
    (preparedRegs i s).claimed = s.regs.claimed := by
  cases i with
  | init => exact absurd rfl hi
  | _ => rfl

/-- A command other than INIT and RELEASE keeps the lifecycle and the ownership of the lines, however it ends. -/
theorem exec_life {i : Instr} {s t : State} (hr : s.cmdReady = true) (h1 : opcodeOf i ≠ 1) (h8 : opcodeOf i ≠ 8)
    (h : exec i s = .next t) : t.regs.life = s.regs.life ∧ t.regs.claimed = s.regs.claimed := by
  have hop := preparedRegs_curOp i s
  have prepared {r : Regs} (hr : r.heldLife = (preparedRegs i s).heldLife) :
      r.life = s.regs.life ∧ r.claimed = s.regs.claimed := by
    rw [← preparedRegs_life i s, ← preparedRegs_claimed h1 s]
    exact heldLife_eq hr (hop ▸ h1) (hop ▸ h8)
  rcases exec_cases hr h with ⟨_, rfl⟩ | ⟨_, _, rfl⟩ | ⟨_, _, rfl⟩
  · exact ⟨rfl, rfl⟩
  · exact prepared (respond_heldLife _ _)
  · exact prepared (runAnswers_heldLife _ _)

/-! ### Lines that a command does not drive (20_memory R81, R89 to R92) -/

/-- A transaction on one line, of these roles. -/
def Txn.onLines (roles : List Role) : Txn → Prop
  | .configure r | .write r _ => r ∈ roles
  | .releaseAll => False

/-- What transactions on lines of these roles leave of the device: the other levels, the register without a shift clock
and a power line, the output latch without a store clock and a power line that has an effect on it. -/
structure Device.SameApart (roles : List Role) (pq : PwrQEffect) (e : Bool) (d d' : Device) : Prop where
  level : ∀ r, r ∉ roles → d'.level r = d.level r
  sr : .shcp ∉ roles → .pwr ∉ roles → d'.sr = d.sr
  q : .stcp ∉ roles → .pwr ∉ roles ∨ e = false ∨ pq = .hold → d'.q = d.q
  stages : d'.sr.length = d.sr.length
  latches : .stcp ∉ roles → d'.q.length = d.q.length

theorem Device.SameApart.refl (roles : List Role) (pq : PwrQEffect) (e : Bool) (d : Device) :
    d.SameApart roles pq e d :=
  ⟨fun _ _ => rfl, fun _ _ => rfl, fun _ _ => rfl, rfl, fun _ => rfl⟩

theorem Device.SameApart.trans {roles : List Role} {pq : PwrQEffect} {e : Bool} {d d' d'' : Device}
    (h : d.SameApart roles pq e d') (h' : d'.SameApart roles pq e d'') : d.SameApart roles pq e d'' :=
  ⟨fun r hr => (h'.level r hr).trans (h.level r hr), fun h1 h2 => (h'.sr h1 h2).trans (h.sr h1 h2),
    fun h1 h2 => (h'.q h1 h2).trans (h.q h1 h2), h'.stages.trans h.stages,
    fun h1 => (h'.latches h1).trans (h.latches h1)⟩

/-- The event on a line moves no level (20_memory R90 to R92). -/
@[simp] theorem event_level (pq : PwrQEffect) (e : Bool) (role r : Role) (a b : Cell) (d : Device) :
    (d.event pq e role a b).level r = d.level r := by
  cases role <;> simp only [Device.event]
  · unfold Device.shiftEvent
    split_ifs <;> cases r <;> rfl
  · unfold Device.storeEvent
    split_ifs <;> cases r <;> rfl
  · unfold Device.powerEvent Device.powerQ
    cases e <;> cases b <;> cases pq <;> (try split_ifs) <;> cases r <;> rfl

/-- A line driven to a level has it, and the other lines keep theirs (20_memory R89). -/
theorem drive_level (pq : PwrQEffect) (e : Bool) (role : Role) (c : Cell) (d : Device) :
    (d.drive pq e role c).level = Function.update d.level role c := by
  funext r
  rw [Device.drive, event_level]
  cases role <;> cases r <;> rfl

/-- A driven line moves what hangs on it alone (20_memory R89 to R92). -/
theorem drive_sameApart {roles : List Role} {role : Role} (hrole : role ∈ roles) (pq : PwrQEffect) (e : Bool) (c : Cell)
    (d : Device) : d.SameApart roles pq e (d.drive pq e role c) := by
  refine ⟨fun r hr => ?_, fun h1 h2 => ?_, fun h1 h2 => ?_, drive_sr_length .., fun h1 => ?_⟩
  · rw [drive_level, Function.update_of_ne (by rintro rfl; exact hr hrole)]
  · cases role with
    | data => rfl
    | shcp => exact absurd hrole h1
    | stcp =>
      simp only [Device.drive, Device.event, Device.storeEvent]
      split_ifs <;> rfl
    | pwr => exact absurd hrole h2
  · cases role with
    | data => rfl
    | shcp =>
      simp only [Device.drive, Device.event, Device.shiftEvent]
      split_ifs <;> rfl
    | stcp => exact absurd hrole h1
    | pwr =>
      have h2 : e = false ∨ pq = .hold := by tauto
      rcases h2 with rfl | rfl
      · rfl
      · simp only [Device.drive, Device.event, Device.powerEvent, Device.powerQ]
        cases c <;> (try split_ifs) <;> rfl
  · cases role with
    | data => rfl
    | shcp =>
      simp only [Device.drive, Device.event, Device.shiftEvent]
      split_ifs <;> rfl
    | stcp => exact absurd hrole h1
    | pwr =>
      simp only [Device.drive, Device.event, Device.powerEvent, Device.powerQ]
      cases c <;> cases pq <;> (try split_ifs) <;> simp [Device.setLevel]

/-- A transaction on a line of these roles, however it is answered. -/
theorem transact_sameApart {roles : List Role} {t : Txn} (ht : t.onLines roles) (pq : PwrQEffect) (e : Bool)
    (a : Answer) (d : Device) : d.SameApart roles pq e (d.transact pq e t a) := by
  cases t with
  | releaseAll => exact ht.elim
  | configure r => cases a <;> exact drive_sameApart ht ..
  | write r v => cases a <;> exact drive_sameApart ht ..

/-- It writes the shadow of a line of these roles alone (20_memory R81). -/
theorem shadow_lvl_of_onLines {roles : List Role} {t : Txn} (ht : t.onLines roles) (a : Answer) (r : Regs) {role : Role}
    (hrole : role ∉ roles) : (r.shadow t a).lvl role = r.lvl role := by
  cases t with
  | releaseAll => exact ht.elim
  | configure r' => rw [shadow_configure_lvl, Function.update_of_ne (by rintro rfl; exact hrole ht)]
  | write r' v => rw [shadow_write_lvl, Function.update_of_ne (by rintro rfl; exact hrole ht)]

/-- An answered edge on a line of these roles. -/
theorem answerEdge_onLines {roles : List Role} {s : State} {t : Txn} (hb : s.regs.busy = true)
    (hk : s.regs.seq[s.regs.k]? = some t) (ht : t.onLines roles) (a : Answer) :
    s.dev.SameApart roles s.params.pwrQ s.regs.cfgPwrEn (answerEdge a s.popRsp).dev ∧
      ∀ role, role ∉ roles → (answerEdge a s.popRsp).regs.lvl role = s.regs.lvl role := by
  refine ⟨?_, fun role hrole => ?_⟩
  · rw [answerEdge_popRsp_dev hb hk a]
    exact transact_sameApart ht ..
  · rw [answerEdge_popRsp_regs hb hk a, answered_lvl, shadow_lvl_of_onLines ht a _ hrole, tick_lvl]

/-- An answered edge keeps the transaction list and the configuration. -/
theorem answerEdge_latched (a : Answer) (s : State) : (answerEdge a s).regs.latched = s.regs.latched :=
  answerEdge_keeps_field Regs.latched (fun r t a => shadow_latched t a r) (fun r c => respond_latched c r)
    (fun r c => abort_latched c r) (fun _ _ => rfl) (fun _ => rfl) (fun _ _ => rfl) a s

/-- The edges of a command whose transactions are on lines of these roles. -/
theorem runAnswers_onLines {roles : List Role} (n : Nat) (s : State)
    (hk : s.regs.busy = true → s.regs.k < s.regs.seq.length) (hs : ∀ t ∈ s.regs.seq, t.onLines roles) :
    s.dev.SameApart roles s.params.pwrQ s.regs.cfgPwrEn (runAnswers n s).dev ∧
      ∀ role, role ∉ roles → (runAnswers n s).regs.lvl role = s.regs.lvl role := by
  refine runAnswers_induct (M := fun s u => (∀ t ∈ s.regs.seq, t.onLines roles) →
    s.dev.SameApart roles s.params.pwrQ s.regs.cfgPwrEn u.dev ∧
      ∀ role, role ∉ roles → u.regs.lvl role = s.regs.lvl role) ?_ ?_ ?_ ?_ n s hk hs
  · exact fun s _ => ⟨.refl .., fun _ _ => rfl⟩
  · exact fun s _ _ => ⟨.refl .., fun _ _ => rfl⟩
  · exact fun s t a hb hk _ hs => answerEdge_onLines hb hk (hs t (List.mem_of_getElem? hk)) a
  · intro s t a u hb hk _ ih hs
    obtain ⟨⟨_, _, _, _, hpwr, _⟩, _, _, _, hseq⟩ := latched_eq_iff.mp (answerEdge_latched a s.popRsp)
    obtain ⟨hd, hl⟩ := answerEdge_onLines hb hk (hs t (List.mem_of_getElem? hk)) a
    obtain ⟨hd', hl'⟩ := ih (by rw [hseq]; exact hs)
    rw [hpwr, answerEdge_params] at hd'
    exact ⟨hd.trans hd', fun role hrole => (hl' role hrole).trans (hl role hrole)⟩

/-- A command whose transactions are on lines of these roles. -/
theorem exec_onLines {roles : List Role} {i : Instr} {s t : State} (hr : s.cmdReady = true) (h : exec i s = .next t)
    (hs : ∀ t ∈ (preparedRegs i s).seq, t.onLines roles) :
    s.dev.SameApart roles s.params.pwrQ (preparedRegs i s).cfgPwrEn t.dev ∧
      ∀ role, role ∉ roles → t.regs.lvl role = s.regs.lvl role := by
  have hlvl : (preparedRegs i s).lvl = s.regs.lvl := by cases i <;> rfl
  rcases exec_cases hr h with ⟨_, rfl⟩ | ⟨_, _, rfl⟩ | ⟨_, hne, rfl⟩
  · exact ⟨.refl .., fun _ _ => rfl⟩
  · exact ⟨.refl .., fun role _ => by rw [concluded, respond_lvl, ← hlvl]; rfl⟩
  · obtain ⟨hd, hl⟩ := runAnswers_onLines (preparedRegs i s).seq.length (started i s)
      (fun _ => started_pointing hne) hs
    exact ⟨hd, fun role hrole => by rw [hl role hrole, ← hlvl]; rfl⟩

/-- Two devices with the same cells and levels are the same. -/
theorem device_eq {d d' : Device} (hsr : d.sr = d'.sr) (hq : d.q = d'.q) (hl : ∀ r, d.level r = d'.level r) :
    d = d' := by
  have hdata := hl .data
  have hshcp := hl .shcp
  have hstcp := hl .stcp
  have hpwr := hl .pwr
  cases d
  cases d'
  simp only [Device.level] at hdata hshcp hstcp hpwr
  simp only [Device.mk.injEq]
  exact ⟨hsr, hq, hdata, hshcp, hstcp, hpwr⟩

/-- The transactions of a load are on the data line and the shift clock (41_bit_protocol R144). -/
theorem loadSeq_onLines (f : List Bool) : ∀ t ∈ loadSeq f, t.onLines [.data, .shcp] := by
  induction f with
  | nil => exact nofun
  | cons b f ih =>
    simp only [loadSeq, elemSeq, List.cons_append, List.nil_append, List.forall_mem_cons]
    exact ⟨by simp [Txn.onLines], by simp [Txn.onLines], by simp [Txn.onLines], by simp [Txn.onLines], ih⟩

/-- The transactions of CLEAR are on the data line, the shift clock and, with the power strategy, the power line
(42_clear_release R161, R162). -/
theorem clearSeq_onLines (r : Regs) :
    ∀ t ∈ clearSeq r, t.onLines (if r.cfgPwrEn then [.data, .shcp, .pwr] else [.data, .shcp]) := by
  cases hp : r.cfgPwrEn with
  | true =>
    rw [clearSeq_power hp]
    simp [powerSeq, Txn.onLines]
  | false =>
    rw [clearSeq_noPower hp]
    exact loadSeq_onLines _

/-- The transactions of INIT are on its lines (40_init R132). -/
theorem initSeq_onLines (pwrEn : Bool) :
    ∀ t ∈ initSeq pwrEn, t.onLines (if pwrEn then [.data, .stcp, .shcp, .pwr] else [.data, .stcp, .shcp]) := by
  cases pwrEn <;> simp [initSeq, Txn.onLines]

theorem sameConfig_preparedRegs {i : Instr} (hi : opcodeOf i ≠ 1) (s : State) : SameConfig s.regs (preparedRegs i s) :=
  (sameConfig_iff _ _).mpr (preparedRegs_configRegs hi s)

/-- Settles O21: `Prepare` of INIT writes neither latch, and its transactions are on its lines (`initSeq_onLines`). -/
theorem initFrame : Obligations.InitFrame := by
  unfold Obligations.InitFrame
  intro s t pwrEn warn width d st sh pw hr h
  obtain ⟨hfbuf, hbit⟩ : t.regs.fbuf = s.regs.fbuf ∧ t.regs.curBit = s.regs.curBit := by
    rcases exec_latched hr h with ⟨_, hl⟩ | ⟨_, hl⟩ <;> obtain ⟨_, hf, hb, _⟩ := latched_eq_iff.mp hl <;>
      exact ⟨hf, hb⟩
  obtain ⟨hdev, hlvl⟩ := exec_onLines hr h (initSeq_onLines pwrEn)
  refine ⟨hfbuf, hbit, fun hp => ?_, hdev.stages, exec_sameSurroundings hr h⟩
  have hpwr : Role.pwr ∉ if pwrEn then [Role.data, .stcp, .shcp, .pwr] else [.data, .stcp, .shcp] := by simp [hp]
  exact ⟨hlvl .pwr hpwr, hdev.level .pwr hpwr⟩

/-- The frame of a command other than INIT and RELEASE whose transactions are on lines of these roles. -/
theorem exec_frame {roles : List Role} {i : Instr} {s t : State} (hr : s.cmdReady = true) (h1 : opcodeOf i ≠ 1)
    (h8 : opcodeOf i ≠ 8) (h : exec i s = .next t) (hs : ∀ t ∈ (preparedRegs i s).seq, t.onLines roles) :
    SameConfig s.regs t.regs ∧ t.regs.life = s.regs.life ∧ t.regs.claimed = s.regs.claimed ∧
      (t.regs.fbuf = s.regs.fbuf ∨ t.regs.fbuf = (preparedRegs i s).fbuf) ∧
      (t.regs.curBit = s.regs.curBit ∨ t.regs.curBit = (preparedRegs i s).curBit) ∧
      (∀ role, role ∉ roles → t.regs.lvl role = s.regs.lvl role) ∧
      s.dev.SameApart roles s.params.pwrQ s.regs.cfgPwrEn t.dev ∧ SameSurroundings s t := by
  obtain ⟨hcfg, hf, hb⟩ := exec_latches hr h (sameConfig_preparedRegs h1 s)
  obtain ⟨hlife, hclaimed⟩ := exec_life hr h1 h8 h
  obtain ⟨hdev, hlvl⟩ := exec_onLines hr h hs
  rw [preparedRegs_cfgPwrEn h1] at hdev
  exact ⟨hcfg, hlife, hclaimed, hf, hb, hlvl, hdev, exec_sameSurroundings hr h⟩

/-- Settles O22: both commands issue one write of the data line. -/
theorem dataLineCommandsFrame : Obligations.DataLineCommandsFrame := by
  unfold Obligations.DataLineCommandsFrame
  intro s t i hr hi h
  have hseq : ∀ t ∈ (preparedRegs i s).seq, t.onLines [.data] := by
    rcases hi with ⟨b, rfl⟩ | rfl
    · exact fun t ht => by simp [List.mem_singleton.mp ht, Txn.onLines]
    · exact fun t ht => by simp [List.mem_singleton.mp ht, Txn.onLines]
  obtain ⟨h1, h8, hfbuf, hbit⟩ : opcodeOf i ≠ 1 ∧ opcodeOf i ≠ 8 ∧ (preparedRegs i s).fbuf = s.regs.fbuf ∧
      (i = .clearData → (preparedRegs i s).curBit = s.regs.curBit) := by
    rcases hi with ⟨b, rfl⟩ | rfl
    · exact ⟨by simp [opcodeOf], by simp [opcodeOf], rfl, nofun⟩
    · exact ⟨by decide, by decide, rfl, fun _ => rfl⟩
  obtain ⟨hcfg, hlife, hclaimed, hf, hb, hlvl, hdev, hsame⟩ := exec_frame hr h1 h8 h hseq
  refine ⟨hcfg, hlife, hclaimed, hf.elim id (·.trans hfbuf), fun hc => hb.elim id (·.trans (hbit hc)),
    hlvl .shcp (by decide), hlvl .stcp (by decide), hlvl .pwr (by decide), ?_, hsame⟩
  refine device_eq (hdev.sr (by decide) (by decide)) (hdev.q (by decide) (.inl (by decide))) fun r => ?_
  cases r with
  | data => rfl
  | shcp | stcp | pwr => exact hdev.level _ (by decide)

/-- Settles O23: SHIFT issues writes of the shift clock. -/
theorem shiftFrame : Obligations.ShiftFrame := by
  unfold Obligations.ShiftFrame
  intro s t hr h
  obtain ⟨hcfg, hlife, hclaimed, hf, hb, hlvl, hdev, hsame⟩ := exec_frame (roles := [.shcp]) hr (by decide)
    (by decide) h
    (by simp [preparedRegs, prepareOf, prepareShift, pulse, Txn.onLines])
  refine ⟨hcfg, hlife, hclaimed, hf.elim id id, hb.elim id id, hlvl .data (by decide), hlvl .stcp (by decide),
    hlvl .pwr (by decide), ?_, hsame⟩
  refine device_eq rfl (hdev.q (by decide) (.inl (by decide))) fun r => ?_
  cases r with
  | shcp => rfl
  | data | stcp | pwr => exact hdev.level _ (by decide)

/-- Settles O24: LOAD_FRAME issues writes of the data line and the shift clock, and its `Prepare` keeps `FBUF` beyond
the width. -/
theorem loadFrameFrame : Obligations.LoadFrameFrame := by
  unfold Obligations.LoadFrameFrame
  intro s t len p hr h
  have hdrop : (preparedRegs (.loadFrame len p) s).fbuf.drop s.regs.width = s.regs.fbuf.drop s.regs.width :=
    List.drop_left' (by simp [frameBits]; rfl)
  obtain ⟨hcfg, hlife, hclaimed, hf, hb, hlvl, hdev, hsame⟩ := exec_frame (i := .loadFrame len p) hr
    (by simp [opcodeOf]) (by simp [opcodeOf]) h (loadSeq_onLines _)
  refine ⟨hcfg, hlife, hclaimed, hf.elim (fun hf => by rw [hf]) (fun hf => by rw [hf, hdrop]), hb.elim id id,
    hlvl .stcp (by decide), hlvl .pwr (by decide), ?_, hsame⟩
  refine device_eq rfl (hdev.q (by decide) (.inl (by decide))) fun r => ?_
  cases r with
  | data | shcp => rfl
  | stcp | pwr => exact hdev.level _ (by decide)

/-- Settles O25: STORE issues writes of the store clock. -/
theorem storeFrame : Obligations.StoreFrame := by
  unfold Obligations.StoreFrame
  intro s t hr h
  obtain ⟨hcfg, hlife, hclaimed, hf, hb, hlvl, hdev, hsame⟩ := exec_frame (roles := [.stcp]) hr (by decide)
    (by decide) h
    (by simp [preparedRegs, prepareOf, prepareStore, pulse, Txn.onLines])
  refine ⟨hcfg, hlife, hclaimed, hf.elim id id, hb.elim id id, hlvl .data (by decide), hlvl .shcp (by decide),
    hlvl .pwr (by decide), ?_, hsame⟩
  refine device_eq (hdev.sr (by decide) (by decide)) rfl fun r => ?_
  cases r with
  | stcp => rfl
  | data | shcp | pwr => exact hdev.level _ (by decide)

/-- Settles O26: CLEAR issues writes of the data line and the shift clock, and of the power line only if there is one
(`clearSeq_onLines`). -/
theorem clearFrame : Obligations.ClearFrame := by
  unfold Obligations.ClearFrame
  intro s t hr h
  obtain ⟨hcfg, hlife, hclaimed, hf, hb, hlvl, hdev, hsame⟩ := exec_frame (i := .clear) hr (by decide) (by decide) h
    (clearSeq_onLines s.regs)
  have hstcp : Role.stcp ∉ if s.regs.cfgPwrEn then [Role.data, .shcp, .pwr] else [.data, .shcp] := by
    split <;> decide
  refine ⟨hcfg, hlife, hclaimed, hf.elim id id, hb.elim id id, hlvl .stcp hstcp, hdev.level .stcp hstcp,
    fun hq => hdev.q hstcp (.inr hq), fun hp => ?_, hsame⟩
  have hpwr : Role.pwr ∉ if s.regs.cfgPwrEn then [Role.data, .shcp, .pwr] else [.data, .shcp] := by simp [hp]
  exact ⟨hlvl .pwr hpwr, hdev.level .pwr hpwr⟩

/-- The end of a RELEASE releases, and nothing before it does (42_clear_release R165, R167). -/
theorem runAnswers_release_life (n : Nat) {s : State} (h8 : s.regs.curOp = 8) :
    (runAnswers n s).regs.life = s.regs.life ∧ (runAnswers n s).regs.claimed = s.regs.claimed ∨
      (runAnswers n s).regs.life = .released ∧ (runAnswers n s).regs.claimed = false := by
  refine (runAnswers_keeps (P := fun u => u.regs.curOp = 8 ∧
    (u.regs.life = s.regs.life ∧ u.regs.claimed = s.regs.claimed ∨
      u.regs.life = .released ∧ u.regs.claimed = false)) ?_ ?_ n s ⟨h8, .inl ⟨rfl, rfl⟩⟩).2
  · exact fun u h => h
  · rintro a u _ ⟨hop, hl⟩
    obtain ⟨_, _, _, hop', _⟩ := latched_eq_iff.mp (answerEdge_latched a u.popRsp)
    refine ⟨hop'.trans hop, ?_⟩
    cases ho : u.popRsp.regs.outstanding with
    | none =>
      rw [answerEdge_none ho]
      exact hl
    | some t =>
      rw [answerEdge_some ho]
      dsimp only
      rcases answered_cases u.regs.tick t a with ⟨_, _, h⟩ | ⟨_, _, h⟩ | ⟨_, _, _, h⟩ | ⟨_, _, h⟩ <;>
        rw [popRsp_regs, h]
      · simpa using hl
      · exact .inr (by simp [respond_eq, hop])
      · simpa using hl
      · simpa [abort_eq, hop] using hl

/-- Settles O27: `Prepare` of RELEASE writes none of the latches, and its end alone writes the lifecycle
(`runAnswers_release_life`). -/
theorem releaseFrame : Obligations.ReleaseFrame := by
  unfold Obligations.ReleaseFrame
  intro s t hr h
  obtain ⟨hcfg, hf, hb⟩ := exec_latches hr h (sameConfig_preparedRegs (by decide) s)
  refine ⟨hcfg, hf.elim id id, hb.elim id id, ?_, exec_sameSurroundings hr h⟩
  rcases exec_cases hr h with ⟨_, rfl⟩ | ⟨_, _, rfl⟩ | ⟨_, _, rfl⟩
  · exact .inl ⟨rfl, rfl⟩
  · exact .inr (by simp [concluded, respond_eq, preparedRegs_curOp, opcodeOf])
  · exact runAnswers_release_life _ (s := started .release s) rfl

end Sys2Proof.Machine

/-! ### The acceptance of a command and its refusals: 30_encoding R111, R114; 60_exceptions R221, R224 -/

namespace Sys2Proof.Machine

/-- Settles O5: by the branch of the step for a presented command that decodes (60_exceptions R223). -/
theorem stepRunsPresentedCommand : Obligations.StepRunsPresentedCommand := by
  unfold Obligations.StepRunsPresentedCommand
  intro s i hr hv hf
  obtain ⟨hb, hl⟩ := (cmdReady_iff s).mp hr
  simp [step, hb, hl, hv, hf]

/-- Settles O6: by the branch of the step for a presented command that does not decode, where it is refused
(`acceptIllegal_eq`). -/
theorem illegalHeaderAnswersIllegalCmd : Obligations.IllegalHeaderAnswersIllegalCmd := by
  unfold Obligations.IllegalHeaderAnswersIllegalCmd
  intro s e hr hv hf
  obtain ⟨hb, hl⟩ := (cmdReady_iff s).mp hr
  simp [step, hb, hl, hv, hf, acceptIllegal_eq]

/-- In READY the validation of a command other than INIT is its own check (60_exceptions R221, R222). -/
theorem checkAdmitted_ready {i : Instr} {s : State} (hl : s.regs.life = .ready) (hi : opcodeOf i ≠ 1) :
    checkAdmitted (opcodeOf i) s.regs.life (ownCheck i s) = ownCheck i s := by
  rw [checkAdmitted, hl, if_pos (admitted_ready.mpr hi)]

/-- A command other than INIT that fails its own check in READY. -/
theorem exec_ready_refused {i : Instr} {s : State} {c : Status} (hr : ReadyForCommand s) (hi : opcodeOf i ≠ 1)
    (hown : ownCheck i s = c) (hc : c ≠ .ok) : exec i s = .next (refusedWith c s) := by
  obtain ⟨hready, hlife⟩ := hr
  have hcode : checkAdmitted (opcodeOf i) s.regs.life (ownCheck i s) = c := by rw [checkAdmitted_ready hlife hi, hown]
  rw [exec_invalid hready (by rwa [hcode]), hcode]

/-- The symbols that are INVALID (30_encoding R103). -/
theorem sym_invalid {b : BitVec 2} : sym b = none ↔ b = 0b10#2 ∨ b = 0b11#2 := by
  revert b
  decide

/-- Settles O9: the symbol fails the check of SET_BIT. -/
theorem setBitRejectsInvalidSymbol : Obligations.SetBitRejectsInvalidSymbol := by
  unfold Obligations.SetBitRejectsInvalidSymbol
  intro s bsym hr hb
  exact exec_ready_refused hr (by simp [opcodeOf]) (by simp [ownCheck, checkSetBit, sym_invalid.mpr hb]) (by decide)

/-- An INVALID symbol inside the frame makes the frame invalid (41_bit_protocol R143). -/
theorem frameValid_eq_false {w : Nat} {p : Payload}
    (h : ∃ i, i < w ∧ (payloadSym p i = 0b10#2 ∨ payloadSym p i = 0b11#2)) : frameValid w p = false := by
  obtain ⟨i, hi, hp⟩ := h
  simp only [frameValid, List.all_eq_false, List.mem_range]
  exact ⟨i, hi, by simp [sym_invalid.mpr hp]⟩

/-- The check and the elements of a frame read its symbols alone (41_bit_protocol R143). -/
theorem frame_congr {w : Nat} {p q : Payload} (h : ∀ i, i < w → payloadSym q i = payloadSym p i) :
    frameValid w q = frameValid w p ∧ frameBits w q = frameBits w p := by
  refine ⟨?_, List.map_congr_left fun i hi => by rw [h i (List.mem_range.mp hi)]⟩
  rw [frameValid, frameValid, Bool.eq_iff_iff, List.all_eq_true, List.all_eq_true]
  exact forall₂_congr fun i hi => by rw [h i (List.mem_range.mp hi)]

/-- Two commands with the same opcode, checks and `Prepare` do the same. -/
theorem exec_congr {i j : Instr} {s : State} (hr : s.cmdReady = true) (hop : opcodeOf i = opcodeOf j)
    (hown : ownCheck i s = ownCheck j s) (hprep : preparedRegs i s = preparedRegs j s) : exec i s = exec j s := by
  by_cases hc : checkAdmitted (opcodeOf i) s.regs.life (ownCheck i s) = .ok
  · have haccept : acceptOf i s = acceptOf j s := by
      rw [acceptOf_ok hc, acceptOf_ok (by rwa [← hop, ← hown]), hprep]
    rw [exec_eq_issue, exec_eq_issue, issue_ready _ hr, issue_ready _ hr, haccept]
  · rw [exec_invalid hr hc, exec_invalid hr (by rwa [← hop, ← hown]), hop, hown]

/-- Settles O10: by the order of the checks of LOAD_FRAME; what it reads of its payload are the symbols of the frame
(`frame_congr`). -/
theorem loadFrameValidatesFirst : Obligations.LoadFrameValidatesFirst := by
  unfold Obligations.LoadFrameValidatesFirst
  intro s len p hr
  refine ⟨fun hlen => ?length, fun hlen hinv => ?symbol, fun q hq => ?beyond⟩
  case length =>
    exact exec_ready_refused hr (by simp [opcodeOf]) (if_pos hlen) (by decide)
  case symbol =>
    refine exec_ready_refused hr (by simp [opcodeOf]) ?_ (by decide)
    simp [ownCheck, checkLoadFrame, hlen, frameValid_eq_false hinv]
  case beyond =>
    obtain ⟨hvalid, hbits⟩ := frame_congr hq
    refine exec_congr hr.1 rfl (by simp only [ownCheck, checkLoadFrame, hvalid]) ?_
    exact congrArg (fun b => ({ s.regs.tick with
      relErr := false, curOp := 5, fbuf := b ++ s.regs.fbuf.drop s.regs.width, seq := loadSeq b } : Regs)) hbits

/-! ### The short commands on a healthy backend: 41_bit_protocol R140 to R142, R145 -/

/-- Settles O12: the run of one write of the data line (`exec_ready_healthy`). -/
theorem setBitCompletes : Obligations.SetBitCompletes := by
  unfold Obligations.SetBitCompletes
  intro s v hr hh
  have hbusy : s.regs.busy = false := ((cmdReady_iff s).mp hr.1).1
  have hsym : sym (if v then 0b01#2 else 0b00#2) = some v := by cases v <;> rfl
  obtain ⟨t, hexec, hregs, hdev, htrace, hsame⟩ :=
    exec_ready_healthy hr (i := .setBit (if v then 0b01#2 else 0b00#2)) (ts := [.write .data v]) (by simp [opcodeOf])
      (by simp [ownCheck, checkSetBit, hsym]) (by simp [preparedRegs, prepareOf, prepareSetBit, hsym])
      (List.cons_ne_nil _ _) hh
  refine ⟨t, hexec, ?_, hdev, htrace, hsame⟩
  rw [hregs, respond_eq]
  simp [preparedRegs, prepareOf, prepareSetBit, opcodeOf, hsym, Regs.shadowAll, Regs.shadow, Regs.setLvl, Regs.tick,
    Regs.atK, hbusy]

/-- Settles O13: the run of a pulse of the shift clock (`exec_ready_healthy`, `transactAll_pulse_shcp`). -/
theorem shiftCompletes : Obligations.ShiftCompletes := by
  unfold Obligations.ShiftCompletes
  intro s hr hh
  have hbusy : s.regs.busy = false := ((cmdReady_iff s).mp hr.1).1
  obtain ⟨t, hexec, hregs, hdev, htrace, hsame⟩ :=
    exec_ready_healthy hr (i := .shift) (ts := pulse .shcp) (by decide) rfl rfl (List.cons_ne_nil _ _) hh
  refine ⟨t, hexec, ?_, fun hc hp => ?_, htrace, hsame⟩
  · rw [hregs, shadowAll_pulse, respond_eq]
    simp [preparedRegs, prepareOf, prepareShift, opcodeOf, pulse, Regs.tick, Regs.atK, Regs.setLvl, hbusy]
  · rw [hdev, transactAll_pulse_shcp _ _ _ hc hp]

/-- Settles O14: the run of one write of the data line (`exec_ready_healthy`). -/
theorem clearDataCompletes : Obligations.ClearDataCompletes := by
  unfold Obligations.ClearDataCompletes
  intro s hr hh
  have hbusy : s.regs.busy = false := ((cmdReady_iff s).mp hr.1).1
  obtain ⟨t, hexec, hregs, hdev, htrace, hsame⟩ :=
    exec_ready_healthy hr (i := .clearData) (ts := [.write .data false]) (by decide) rfl rfl (List.cons_ne_nil _ _) hh
  refine ⟨t, hexec, ?_, hdev, htrace, hsame⟩
  rw [hregs, respond_eq]
  simp [preparedRegs, prepareOf, prepareClearData, opcodeOf, Regs.shadowAll, Regs.shadow, Regs.setLvl, Level.ofBool,
    Regs.tick, Regs.atK, hbusy]

/-- Settles O16: the run of STORE (`exec_store_healthy`). -/
theorem storeCompletes : Obligations.StoreCompletes := by
  unfold Obligations.StoreCompletes
  exact fun s hr hh => exec_store_healthy hr hh

/-! ### RELEASE on a healthy backend: 42_clear_release R164 to R168 -/

/-- Transactions answered OK write shadows alone (20_memory R81). -/
theorem shadowAll_eq (ts : List Txn) (r : Regs) :
    ∃ a b c d, Regs.shadowAll ts r = { r with lvlData := a, lvlShcp := b, lvlStcp := c, lvlPwr := d } := by
  induction ts generalizing r with
  | nil => exact ⟨_, _, _, _, rfl⟩
  | cons t ts ih =>
    obtain ⟨a, b, c, d, h⟩ := ih (r.shadow t .ok)
    refine ⟨a, b, c, d, ?_⟩
    rw [Regs.shadowAll, h]
    rcases t with role | ⟨role, v⟩ | _
    · cases role <;> rfl
    · cases role <;> rfl
    · rfl

/-- After the release of all lines every shadow is U, whatever came before (42_clear_release R165). -/
theorem shadowAll_append_releaseAll (ts : List Txn) (r : Regs) :
    Regs.shadowAll (ts ++ [.releaseAll]) r =
      { r with lvlData := .u, lvlShcp := .u, lvlStcp := .u, lvlPwr := .u } := by
  obtain ⟨a, b, c, d, h⟩ := shadowAll_eq ts r
  rw [shadowAll_append, h]
  rfl

/-- Transactions on these lines, all answered OK. -/
theorem transactAll_sameApart {roles : List Role} (pq : PwrQEffect) (e : Bool) {ts : List Txn}
    (hts : ∀ t ∈ ts, t.onLines roles) (d : Device) : d.SameApart roles pq e (Device.transactAll pq e ts d) := by
  induction ts generalizing d with
  | nil => exact .refl ..
  | cons t ts ih =>
    rw [List.forall_mem_cons] at hts
    exact (transact_sameApart hts.1 pq e .ok d).trans (ih hts.2 _)

/-- After transactions on lines other than the store clock, a release of all lines leaves every line and cell unknown
(20_memory R94). -/
theorem transactAll_append_releaseAll {roles : List Role} (hstcp : Role.stcp ∉ roles) (pq : PwrQEffect) (e : Bool)
    {ts : List Txn} (hts : ∀ t ∈ ts, t.onLines roles) (d : Device) :
    Device.transactAll pq e (ts ++ [.releaseAll]) d =
      { sr := List.replicate d.sr.length .x, q := List.replicate d.q.length .x,
        pData := .x, pShcp := .x, pStcp := .x, pPwr := .x } := by
  have hsame := transactAll_sameApart pq e hts d
  rw [transactAll_append, ← hsame.stages, ← hsame.latches hstcp, ← allCells_eq_replicate, ← allCells_eq_replicate]
  exact floatLines_eq pq e _

/-- The transactions of RELEASE in READY (42_clear_release R164). -/
theorem releaseSeq_ready {r : Regs} (hl : r.life = .ready) : releaseSeq r = clearSeq r ++ [.releaseAll] := if_pos hl

/-- Settles O19: the run of the clear phase and the `ReleaseAll` (`exec_ready_healthy`); what the latter leaves does not
depend on the former (`shadowAll_append_releaseAll`, `transactAll_append_releaseAll`). -/
theorem releaseFromReadyCompletes : Obligations.ReleaseFromReadyCompletes := by
  unfold Obligations.ReleaseFromReadyCompletes
  intro s hr hh
  have hbusy : s.regs.busy = false := ((cmdReady_iff s).mp hr.1).1
  have hseq : (preparedRegs .release s).seq = clearSeq s.regs ++ [.releaseAll] := releaseSeq_ready hr.2
  have hlen : (clearSeq s.regs ++ [Txn.releaseAll]).length = if s.regs.cfgPwrEn then 6 else 4 * s.regs.width + 1 := by
    rw [List.length_append, clearSeq_length]
    split <;> rfl
  obtain ⟨t, hexec, hregs, hdev, htrace, hsame⟩ :=
    exec_ready_healthy hr (i := .release) (by decide) rfl hseq
      (List.append_ne_nil_of_right_ne_nil _ (List.cons_ne_nil _ _)) (hlen ▸ hh)
  have hregs' : t.regs = { s.regs with
      life := .released, claimed := false, lastStatus := .ok, doneStatus := .ok, doneValid := true,
      curOp := 8, relErr := false, seq := clearSeq s.regs ++ [.releaseAll],
      k := if s.regs.cfgPwrEn then 5 else 4 * s.regs.width,
      lvlData := .u, lvlShcp := .u, lvlStcp := .u, lvlPwr := .u } := by
    rw [hregs, shadowAll_append_releaseAll, respond_eq, hlen, ← hseq]
    cases s.regs.cfgPwrEn <;>
      simp [preparedRegs, prepareOf, prepareRelease, opcodeOf, Regs.tick, Regs.atK, hbusy]
  refine ⟨t, hexec, hregs', ?_, by rw [htrace, hregs'], hsame⟩
  rw [hdev]
  exact transactAll_append_releaseAll (by split <;> decide) _ _ (clearSeq_onLines s.regs) _

/-- RELEASE is admitted in every state (60_exceptions R222), and has no check of its own (42_clear_release R164). -/
theorem checkAdmitted_release (s : State) :
    checkAdmitted (opcodeOf .release) s.regs.life (ownCheck .release s) = .ok := rfl

/-- Settles O20: outside READY the transactions of RELEASE are the `ReleaseAll` alone where lines are claimed, whose run
is `exec_healthy`, and none where nothing is claimed, where it ends at acceptance. -/
theorem releaseOutsideReadyCompletes : Obligations.ReleaseOutsideReadyCompletes := by
  unfold Obligations.ReleaseOutsideReadyCompletes
  intro s hr hl
  have hbusy : s.regs.busy = false := ((cmdReady_iff s).mp hr).1
  refine ⟨fun hc hh => ?claimed, fun hc => ?unclaimed⟩
  case claimed =>
    have hseq : (preparedRegs .release s).seq = [.releaseAll] :=
      (if_neg hl).trans (if_pos hc)
    refine ⟨_, exec_healthy hr (checkAdmitted_release s) rfl hseq (by simp) rfl hh, ?_, rfl, rfl, rfl, rfl⟩
    rw [respond_eq]
    simp [preparedRegs, prepareOf, prepareRelease, releaseSeq, opcodeOf, Regs.shadowAll, Regs.shadow, Regs.tick,
      Regs.atK, hbusy, hl, hc]
  case unclaimed =>
    have hseq : (preparedRegs .release s).seq = [] :=
      (if_neg hl).trans (if_neg (by simp [hc]))
    obtain ⟨t, ht⟩ : ∃ t, exec .release s = .next t := ⟨_, (exec_eq_issue .release s).trans (issue_ready _ hr)⟩
    rcases exec_cases hr ht with ⟨hno, _⟩ | ⟨_, _, rfl⟩ | ⟨_, hne, _⟩
    · exact absurd (checkAdmitted_release s) hno
    · refine ⟨_, ht, ?_, rfl, rfl, rfl, rfl, rfl⟩
      rw [concluded, respond_eq, ← hseq]
      simp [preparedRegs, prepareOf, prepareRelease, opcodeOf, Regs.tick, hbusy, hc]
    · exact absurd hseq hne

end Sys2Proof.Machine

/-! ### Reset: 70_reset_and_hazards R250 to R252 -/

namespace Sys2Proof.Machine

/-- Settles O28: field by field, the words by `reset_words`. -/
theorem resetStateValues : Obligations.ResetStateValues := by
  unfold Obligations.ResetStateValues
  obtain ⟨hstatus, hcfg, hwarn⟩ := reset_words 255
  exact ⟨rfl, hstatus, hcfg, request_idle rfl, hwarn, rfl⟩

/-- Settles O30: the step is the edge in reset (`step_in_reset`), after which nothing is outstanding, so that an answer
is ignored (`answerEdge_none`); with a command in flight it floats every line (`floatLines_eq`). -/
theorem resetAndTheDevice : Obligations.ResetAndTheDevice := by
  unfold Obligations.ResetAndTheDevice
  intro s hl
  refine ⟨resetEdge s, step_in_reset hl, rfl, fun hb => by simp [hb],
    fun hb => ⟨request_idle rfl, rfl, ?device, ?late⟩⟩
  case device =>
    rw [resetEdge_dev, if_pos hb, floatLines_eq, allCells_eq_replicate, allCells_eq_replicate]
  case late =>
    intro a
    rw [answerEdge_none (outstanding_idle rfl)]
    exact ⟨rfl, rfl⟩

/-! ### The answered edge: 30_encoding R116, 60_exceptions R225 -/

/-- Settles O34: an answer OK advances `K` (`answered_ok_next`) or responds (`answered_ok_last`, `respond_eq`). -/
theorem okAnswerAdvancesOrResponds : Obligations.OkAnswerAdvancesOrResponds := by
  unfold Obligations.OkAnswerAdvancesOrResponds
  intro s t hb ht
  have hedge := answerEdge_some ((outstanding_eq hb).trans ht) .ok
  refine ⟨fun hnext => ?next, fun hlast => ?last⟩
  case next =>
    have hregs : (answerEdge .ok s).regs = (s.regs.tick.shadow t .ok).atK (s.regs.k + 1) := by
      rw [hedge]
      exact answered_ok_next hnext
    simp [hregs, hb]
  case last =>
    have hregs : (answerEdge .ok s).regs =
        (s.regs.tick.shadow t .ok).respond (if s.regs.relErr then .backendIo else .ok) := by
      rw [hedge]
      exact answered_ok_last hlast.le
    have hcfg : SameConfig s.regs (answerEdge .ok s).regs :=
      (latched_eq_iff.mp (answerEdge_latched .ok s)).1
    refine ⟨?_, ?_, ?_, ?_, ?_, ?_, hcfg⟩ <;> rw [hregs, respond_eq]
    · cases s.regs.relErr <;> simp
    · -- an INIT that ends with OK keeps its claim, which RELEASE alone gives up
      by_cases h1 : s.regs.curOp = 1#4 <;> simp [h1]

/-- Settles O35: the answer ERR aborts (`answered_err_abort`, `abort_eq`), and leaves the device as after every failed
transaction (`transact_err`). -/
theorem backendErrorAborts : Obligations.BackendErrorAborts := by
  unfold Obligations.BackendErrorAborts
  intro s t hb ht h8
  have hedge := answerEdge_some ((outstanding_eq hb).trans ht) .err
  have hregs : (answerEdge .err s).regs = (s.regs.tick.shadow t .err).abort .backendIo := by
    rw [hedge]
    exact answered_err_abort h8
  have hcfg : SameConfig s.regs (answerEdge .err s).regs := (latched_eq_iff.mp (answerEdge_latched .err s)).1
  refine ⟨?_, ?_, ?_, ?_, ?_, ?_, hcfg, by rw [hedge], ?_⟩
  case refine_7 =>
    rw [hedge]
    exact transact_err ..
  all_goals simp [hregs, abort_eq]

/-! ### The port-level machine: 30_encoding R116, R117 -/

/-- An edge at which neither port shows anything (30_encoding R116). -/
theorem clockEdge_rspInputs_none (s : State) : clockEdge (rspInputs none) s = quietEdge s := by
  cases hb : s.regs.busy <;> simp [rspInputs, clockEdge, hb]

/-- An edge at which the answer port alone shows something; with nothing in flight it is ignored (60_exceptions
R229). -/
theorem clockEdge_rspInputs_some (a : Answer) (s : State) : clockEdge (rspInputs (some a)) s = answerEdge a s := by
  cases hb : s.regs.busy with
  | true => cases a <;> simp [rspInputs, clockEdge, hb]
  | false =>
    rw [answerEdge_none (outstanding_idle hb)]
    cases a <;> simp [rspInputs, clockEdge, hb]

/-- Two states whose blocks, devices and traces are the same but for `DONE_VALID`. -/
structure State.AgreesWith (s u : State) : Prop where
  regs : s.regs.tick = u.regs.tick
  dev : s.dev = u.dev
  trace : s.trace = u.trace
  params : s.params = u.params

/-- An edge without an answer moves `DONE_VALID` alone. -/
theorem State.AgreesWith.quietEdge_left {s u : State} (h : s.AgreesWith u) : (quietEdge s).AgreesWith u :=
  ⟨h.regs, h.dev, h.trace, h.params⟩

/-- `DONE_VALID` has no effect on an answered edge. -/
theorem State.AgreesWith.answerEdge {s u : State} (h : s.AgreesWith u) (a : Answer) :
    (answerEdge a s).AgreesWith (answerEdge a u) := by
  have hout : s.regs.tick.outstanding = u.regs.tick.outstanding := by rw [h.regs]
  have hpwr : s.regs.tick.cfgPwrEn = u.regs.tick.cfgPwrEn := by rw [h.regs]
  rw [tick_cfgPwrEn, tick_cfgPwrEn] at hpwr
  cases ho : u.regs.outstanding with
  | none =>
    rw [answerEdge_none ho, answerEdge_none (hout.trans ho)]
    exact ⟨h.regs, h.dev, h.trace, h.params⟩
  | some t =>
    rw [answerEdge_some ho, answerEdge_some (hout.trans ho)]
    exact ⟨by rw [h.regs], by rw [h.dev, h.params, hpwr], by rw [h.trace], h.params⟩

/-- Settles O45: by induction on the answers; the edge left out moves `DONE_VALID` alone (`quietEdge_left`), on which
the other edges do not depend (`answerEdge`). -/
theorem latencyDoesNotMatter : Obligations.LatencyDoesNotMatter := by
  unfold Obligations.LatencyDoesNotMatter
  have run (rs : List (Option Answer)) : ∀ s u : State, s.AgreesWith u →
      (clockRun (rs.map rspInputs) s).AgreesWith (clockRun ((rs.filter Option.isSome).map rspInputs) u) := by
    induction rs with
    | nil => exact fun s u h => h
    | cons r rs ih =>
      intro s u h
      cases r with
      | none =>
        simp only [List.map_cons, clockRun, clockEdge_rspInputs_none]
        exact ih _ _ h.quietEdge_left
      | some a =>
        simp only [List.filter_cons, Option.isSome_some, if_true, List.map_cons, clockRun, clockEdge_rspInputs_some]
        exact ih _ _ (h.answerEdge a)
  intro rs s
  obtain ⟨hregs, hdev, htrace, _⟩ := run rs s s ⟨rfl, rfl, rfl, rfl⟩
  exact ⟨hregs, hdev, htrace⟩

/-- Two states with the same block, device, trace, parameters and edge count: they differ outside the block alone. -/
structure State.SameBlock (s u : State) : Prop where
  regs : s.regs = u.regs
  dev : s.dev = u.dev
  trace : s.trace = u.trace
  cycle : s.cycle = u.cycle
  params : s.params = u.params

theorem State.SameBlock.rfl {s : State} : s.SameBlock s := ⟨.refl _, .refl _, .refl _, .refl _, .refl _⟩

theorem State.SameBlock.trans {s u v : State} (h : s.SameBlock u) (h' : u.SameBlock v) : s.SameBlock v :=
  ⟨h.regs.trans h'.regs, h.dev.trans h'.dev, h.trace.trans h'.trace, h.cycle.trans h'.cycle, h.params.trans h'.params⟩

theorem State.SameBlock.quietEdge {s u : State} (h : s.SameBlock u) : (quietEdge s).SameBlock (quietEdge u) :=
  ⟨by rw [quietEdge_regs, h.regs, quietEdge_regs], h.dev, h.trace, congrArg (· + 1) h.cycle, h.params⟩

theorem State.SameBlock.answerEdge {s u : State} (h : s.SameBlock u) (a : Answer) :
    (answerEdge a s).SameBlock (answerEdge a u) := by
  have hcycle : s.cycle + 1 = u.cycle + 1 := congrArg (· + 1) h.cycle
  cases ho : u.regs.outstanding with
  | none =>
    rw [answerEdge_none ho, answerEdge_none (h.regs ▸ ho)]
    exact h.quietEdge
  | some t =>
    rw [answerEdge_some ho, answerEdge_some (h.regs ▸ ho)]
    exact ⟨by rw [h.regs], by rw [h.dev, h.params, h.regs], by rw [h.trace], hcycle, h.params⟩

/-- What the block does at its answer port depends on nothing outside it. -/
theorem State.SameBlock.clockRun (rs : List (Option Answer)) {s u : State} (h : s.SameBlock u) :
    (clockRun (rs.map rspInputs) s).SameBlock (clockRun (rs.map rspInputs) u) := by
  induction rs generalizing s u with
  | nil => exact h
  | cons r rs ih =>
    refine ih ?_
    cases r with
    | none =>
      rw [clockEdge_rspInputs_none, clockEdge_rspInputs_none]
      exact h.quietEdge
    | some a =>
      rw [clockEdge_rspInputs_some, clockEdge_rspInputs_some]
      exact h.answerEdge a

/-- The edges of a command in flight are clock edges at which the ports show the answers to come (30_encoding R116,
R117; log entry 5). -/
theorem runAnswers_clockRun (m : Nat) (s : State) :
    ∃ n, (clockRun ((rspAhead n s.draws s.cycle).map rspInputs) s).SameBlock (runAnswers m s) := by
  induction m generalizing s with
  | zero => exact ⟨0, .rfl⟩
  | succ m ih =>
    cases hb : s.regs.busy with
    | false =>
      rw [runAnswers_idle _ hb]
      exact ⟨0, .rfl⟩
    | true =>
      cases hr : s.nextRsp with
      | none =>
        rw [runAnswers_succ_none m hb hr]
        refine ⟨1, ?_⟩
        rw [rspAhead_succ, List.map_cons, clockRun, hr, clockEdge_rspInputs_none]
        exact State.SameBlock.quietEdge ⟨rfl, rfl, rfl, rfl, rfl⟩
      | some a =>
        rw [runAnswers_succ_some m hb hr]
        obtain ⟨n, hn⟩ := ih (answerEdge a s.popRsp)
        refine ⟨n + 1, ?_⟩
        rw [rspAhead_succ, List.map_cons, clockRun, hr, clockEdge_rspInputs_some]
        rw [answerEdge_draws, answerEdge_cycle, popRsp_cycle] at hn
        have hpop : s.SameBlock s.popRsp := ⟨rfl, rfl, rfl, rfl, rfl⟩
        exact ((hpop.answerEdge a).clockRun _).trans hn

/-- What the ports show at the first edge of a step. -/
def State.inputs (s : State) : Inputs where
  rstN := decide (s.port.rstLow = 0)
  cmdValid := s.port.cmdValid
  cmdHdr := s.port.cmdHdr
  cmdFrame := s.port.cmdFrame
  rspValid := s.nextRsp.isSome
  rspErr := s.nextRsp == some .err

/-- The first edge of a step of a command in flight is that of the answer port (60_exceptions R223, R229). -/
theorem clockEdge_inputs_busy {s : State} (hl : s.port.rstLow = 0) (hb : s.regs.busy = true) :
    clockEdge s.inputs s = clockEdge (rspInputs s.nextRsp) s := by
  rw [clockEdge_busy _ hb, clockEdge_busy _ hb]
  cases hr : s.nextRsp with
  | none => simp [State.inputs, hl, hr, rspInputs]
  | some a => cases a <;> simp [State.inputs, hl, hr, rspInputs]

/-- The first edge of a step of a block that is ready is that of the command port (60_exceptions R223). -/
theorem clockEdge_inputs_ready {s : State} (hr : s.cmdReady = true) :
    clockEdge s.inputs s =
      if s.port.cmdValid then acceptCommand s.port.cmdHdr s.port.cmdFrame s else quietEdge s := by
  obtain ⟨hb, hl⟩ := (cmdReady_iff s).mp hr
  rw [clockEdge_idle _ hb]
  simp [State.inputs, hl]

/-- The acceptance edge of a command that decodes. -/
theorem acceptCommand_ok {s : State} {i : Instr} (h : fetchCommand s = .ok i) :
    acceptCommand s.port.cmdHdr s.port.cmdFrame s = acceptOf i s := by
  have hd : decode s.port.cmdHdr (busPayload s.params.wmax s.port.cmdFrame) = .ok i := h
  simp only [acceptCommand, hd, acceptInstr_eq_acceptOf]

/-- The acceptance edge of an illegal header. -/
theorem acceptCommand_error {s : State} {e : DecodeError} (h : fetchCommand s = .error e) :
    acceptCommand s.port.cmdHdr s.port.cmdFrame s = refusedWith .illegalCmd s := by
  have hd : decode s.port.cmdHdr (busPayload s.params.wmax s.port.cmdFrame) = .error e := h
  simp only [acceptCommand, hd, acceptIllegal_eq]

@[simp] theorem acceptOf_draws (i : Instr) (s : State) : (acceptOf i s).draws = s.draws := rfl

@[simp] theorem acceptOf_cycle (i : Instr) (s : State) : (acceptOf i s).cycle = s.cycle + 1 := rfl

/-- A step is its first edge and a run of edges at the answer port. -/
theorem step_clockRun {s t : State} (h : step s = .next t) :
    ∃ n, (clockRun (s.inputs ::
      (rspAhead n (if s.regs.busy then s.draws.tail else s.draws) (s.cycle + 1)).map rspInputs) s).SameBlock t := by
  rcases step_cases h with ⟨hl, rfl⟩ | ⟨hl, hb, hk, rfl⟩ | ⟨hr, hv, i, hf, he⟩ | ⟨hr, hv, e, hf, rfl⟩ |
    ⟨hr, hv, rfl⟩
  case inl =>
    refine ⟨0, ?_⟩
    have hedge : clockEdge s.inputs s = resetEdge s := if_pos (by simp [State.inputs, hl.ne'])
    simp only [rspAhead, List.map_nil, clockRun, hedge]
    exact .rfl
  case inr.inl =>
    obtain ⟨m, hm⟩ : ∃ m, s.regs.seq.length - s.regs.k = m + 1 := ⟨s.regs.seq.length - s.regs.k - 1, by omega⟩
    simp only [clockRun, clockEdge_inputs_busy hl hb, hm, hb, if_true]
    cases hr : s.nextRsp with
    | none =>
      rw [runAnswers_succ_none m hb hr, clockEdge_rspInputs_none]
      exact ⟨0, State.SameBlock.quietEdge ⟨rfl, rfl, rfl, rfl, rfl⟩⟩
    | some a =>
      rw [runAnswers_succ_some m hb hr, clockEdge_rspInputs_some]
      obtain ⟨n, hn⟩ := runAnswers_clockRun m (answerEdge a s.popRsp)
      rw [answerEdge_draws, answerEdge_cycle, popRsp_cycle] at hn
      have hpop : s.SameBlock s.popRsp := ⟨rfl, rfl, rfl, rfl, rfl⟩
      exact ⟨n, ((hpop.answerEdge a).clockRun _).trans hn⟩
  case inr.inr.inl =>
    rw [exec_eq_issue, issue_ready _ hr, Host.Outcome.next.injEq] at he
    obtain ⟨n, hn⟩ := runAnswers_clockRun (acceptOf i s).regs.seq.length (acceptOf i s)
    simp only [clockRun, clockEdge_inputs_ready hr, hv, if_true, acceptCommand_ok hf, ((cmdReady_iff s).mp hr).1]
    rw [he] at hn
    exact ⟨n, hn⟩
  case inr.inr.inr.inl =>
    refine ⟨0, ?_⟩
    simp only [rspAhead, List.map_nil, clockRun, clockEdge_inputs_ready hr, hv, if_true, acceptCommand_error hf]
    exact .rfl
  case inr.inr.inr.inr =>
    refine ⟨0, ?_⟩
    simp only [rspAhead, List.map_nil, clockRun, clockEdge_inputs_ready hr, hv]
    exact ⟨rfl, rfl, rfl, rfl, rfl⟩

/-- Settles O46: the first edge finds the ports as the state says (`State.inputs`), and the others are those of the
answer port (`step_clockRun`). -/
theorem stepIsClockEdges : Obligations.StepIsClockEdges := by
  unfold Obligations.StepIsClockEdges
  intro s t h
  obtain ⟨n, hregs, hdev, htrace, hcycle, _⟩ := step_clockRun h
  refine ⟨s.inputs, n, rfl, rfl, rfl, rfl, ?_, ?_⟩
  · cases hr : s.nextRsp with
    | none => simp [State.inputs, hr]
    | some a => cases a <;> simp [State.inputs, hr]
  · rintro u rfl
    exact ⟨hregs, hdev, htrace, hcycle⟩

end Sys2Proof.Machine

/-! ### The invariant: 10_state R33 to R49, R54; 45_host_sequencer R194; 70_reset_and_hazards R262 -/

namespace Sys2Proof.Machine

/-- The part of the invariant that speaks of the registers alone. -/
structure Regs.Sound (wmax : Nat) (r : Regs) : Prop where
  fbuf : r.fbuf.length = wmax
  ready : r.life = .ready → r.Configured wmax
  status : r.lastStatus = r.doneStatus
  done : r.doneValid = true → r.busy = false
  seqLen : r.seq.length ≤ max 8 (4 * wmax + 1)
  flight : r.busy = true → r.InFlight wmax

theorem Inv.sound {s : State} (h : Inv s) : s.regs.Sound s.params.wmax :=
  ⟨h.fbuf, h.ready, h.status, h.done, h.seqLen, h.flight⟩

/-- The registers after reset meet it. -/
theorem Regs.Sound.reset (wmax : Nat) : (Regs.reset wmax).Sound wmax :=
  ⟨List.length_replicate, nofun, rfl, nofun, Nat.zero_le _, nofun⟩

/-- Settles O38: the registers after reset (`Regs.Sound.reset`), and no host program. -/
theorem resetMeetsInvariant : Obligations.ResetMeetsInvariant := by
  unfold Obligations.ResetMeetsInvariant
  obtain ⟨fbuf, ready, status, done, seqLen, flight⟩ := Regs.Sound.reset 255
  exact ⟨by decide, fbuf, rfl, ready, status, done, seqLen, flight, nofun⟩

/-- Settles O40: a command in flight points into its transactions, so that it can go on. -/
theorem invariantNeverStops : Obligations.InvariantNeverStops := by
  unfold Obligations.InvariantNeverStops
  intro s h
  unfold step
  split
  · exact ⟨_, rfl⟩
  · split
    · rename_i hb
      obtain ⟨hk, _⟩ := h.flight hb
      exact ⟨_, if_pos hk⟩
    · rename_i hb hl
      split
      · split
        · exact ⟨_, (exec_eq_issue _ s).trans (issue_ready _ ((cmdReady_iff s).mpr ⟨by simpa using hl, by omega⟩))⟩
        · exact ⟨_, rfl⟩
      · exact ⟨_, rfl⟩

/-! #### The edges of a command -/

/-- The end of a command, with a legal configuration where it leaves READY. -/
theorem Regs.Sound.respond {wmax : Nat} {r : Regs} (hf : r.fbuf.length = wmax)
    (hs : r.seq.length ≤ max 8 (4 * wmax + 1)) (hr : r.life = .ready → r.Configured wmax)
    (h1 : r.curOp = 1 → r.Configured wmax) (c : Status) : (r.respond c).Sound wmax := by
  rw [respond_eq]
  refine ⟨hf, fun hl => ?_, rfl, fun _ => rfl, hs, nofun⟩
  dsimp only at hl
  by_cases hop : r.curOp = 1#4 ∧ c = .ok
  · simpa [Regs.Configured, Regs.width, hop] using h1 hop.1
  · by_cases h8 : r.curOp = 8#4
    · simp [h8] at hl
    · simpa [Regs.Configured, Regs.width, hop, h8] using hr (by simpa [hop, h8] using hl)

/-- An abort, with a legal configuration where it leaves READY. -/
theorem Regs.Sound.abort {wmax : Nat} {r : Regs} (hf : r.fbuf.length = wmax)
    (hs : r.seq.length ≤ max 8 (4 * wmax + 1)) (hr : r.life = .ready → r.Configured wmax) (c : Status) :
    (r.abort c).Sound wmax := by
  rw [abort_eq]
  refine ⟨hf, fun hl => ?_, rfl, fun _ => rfl, hs, nofun⟩
  by_cases hop : r.curOp = 1#4
  · simp [hop] at hl
  · exact hr (by simpa [hop] using hl)

/-- An answer to the outstanding transaction. -/
theorem Regs.Sound.answered {wmax : Nat} {r : Regs} (h : r.Sound wmax) (hb : r.busy = true)
    (t : Txn) (a : Answer) : (r.tick.answered t a).Sound wmax := by
  obtain ⟨hk, hshape⟩ := h.flight hb
  rcases answered_cases r.tick t a with ⟨_, hn, he⟩ | ⟨_, _, he⟩ | ⟨_, h8, _, he⟩ | ⟨_, _, he⟩ <;> rw [he]
  case inl =>
    refine ⟨by simpa using h.fbuf, by simpa [Regs.Configured, Regs.width] using h.ready, by simpa using h.status,
      by simp, by simpa using h.seqLen, fun _ => ⟨by simpa using hn, ?_⟩⟩
    simpa [Regs.Configured, Regs.width] using hshape
  case inr.inl =>
    refine .respond (by simpa using h.fbuf) (by simpa using h.seqLen)
      (by simpa [Regs.Configured, Regs.width] using h.ready) (fun h1 => ?_) _
    rcases hshape with ⟨_, _, _, hc⟩ | ⟨hno, _⟩ | ⟨h8, _⟩
    · simpa [Regs.Configured, Regs.width] using hc
    · exact absurd (by simpa using h1) hno
    · simp [h8] at h1
  case inr.inr.inl =>
    have hrel : r.claimed = true ∧ ∃ l, r.seq = l ++ [.releaseAll] ∧ Txn.releaseAll ∉ l := by
      rcases hshape with ⟨h1, _⟩ | ⟨_, hno, _⟩ | ⟨_, hrel⟩
      · exact absurd (h1.symm.trans h8) (by decide)
      · exact absurd h8 hno
      · exact hrel
    refine ⟨by simpa using h.fbuf, by simpa [Regs.Configured, Regs.width] using h.ready, by simpa using h.status,
      by simp, by simpa using h.seqLen, fun _ => ⟨by simp; omega, .inr (.inr ⟨?_, ?_⟩)⟩⟩
    · simpa using h8
    · simpa using hrel
  case inr.inr.inr =>
    exact .abort (by simpa using h.fbuf) (by simpa using h.seqLen)
      (by simpa [Regs.Configured, Regs.width] using h.ready) _

/-- The registers and the stages of the device, as the invariant has them. -/
def State.Sound (s : State) : Prop := s.regs.Sound s.params.wmax ∧ s.dev.sr.length = s.dev.q.length

/-- The edges of a command in flight keep them so. -/
theorem State.Sound.runAnswers (n : Nat) {s : State} (h : s.Sound) : (runAnswers n s).Sound := by
  refine runAnswers_keeps (P := State.Sound) (fun u ⟨hr, hd⟩ => ?_) (fun a u hb ⟨hr, hd⟩ => ?_) n s h
  · exact ⟨⟨hr.fbuf, hr.ready, hr.status, nofun, hr.seqLen, hr.flight⟩, hd⟩
  · obtain ⟨t, ht⟩ : ∃ t, u.regs.seq[u.regs.k]? = some t := ⟨_, List.getElem?_eq_getElem (hr.flight hb).1⟩
    have hregs := answerEdge_popRsp_regs hb ht a
    have hdev := answerEdge_popRsp_dev hb ht a
    obtain ⟨hsr, hq⟩ := transact_lengths u.params.pwrQ u.regs.cfgPwrEn t a u.dev hd
    refine ⟨?_, by rw [hdev, hsr, hq, hd]⟩
    rw [hregs, answerEdge_params]
    exact hr.answered hb t a

/-! #### The acceptance of a command -/

/-- A command other than INIT and RELEASE is admitted in READY alone (60_exceptions R222). -/
theorem ready_of_admitted {op : BitVec 4} {l : Life} (h1 : op ≠ 1) (h8 : op ≠ 8) (ha : admitted op l = true) :
    l = .ready := by
  by_contra hl
  rw [admitted_eq_false.mpr (.inr ⟨h1, h8, hl⟩)] at ha
  cases ha

/-- The number of transactions of CLEAR is bounded by the width (10_state R47; log entry 7). -/
theorem clearSeq_length_le {wmax : Nat} {r : Regs} (hw : r.width ≤ wmax) :
    (clearSeq r).length + 1 ≤ max 8 (4 * wmax + 1) := by
  rw [clearSeq_length]
  split <;> omega

/-- `ReleaseAll` is no transaction on a line. -/
theorem releaseAll_notMem {roles : List Role} {ts : List Txn} (h : ∀ t ∈ ts, t.onLines roles) : .releaseAll ∉ ts :=
  fun hm => h _ hm

/-- What `Prepare` makes of the registers, for a command that passes validation: the frame latch, the configuration
and the transaction list are as the invariant has them, and the command has one of the three shapes. -/
structure Prepared (wmax : Nat) (r : Regs) : Prop where
  fbuf : r.fbuf.length = wmax
  ready : r.life = .ready → r.Configured wmax
  init : r.curOp = 1 → r.Configured wmax
  seqLen : r.seq.length ≤ max 8 (4 * wmax + 1)
  flight : r.seq ≠ [] → ({ r with k := 0, busy := true } : Regs).InFlight wmax

/-- A command other than INIT and RELEASE, which is accepted in READY (60_exceptions R222). -/
theorem prepared_bitCommand {i : Instr} {s : State} (h : s.regs.Sound s.params.wmax) (h1 : opcodeOf i ≠ 1)
    (h8 : opcodeOf i ≠ 8) (hl : s.regs.life = .ready) (hf : (preparedRegs i s).fbuf.length = s.params.wmax)
    (hs : (preparedRegs i s).seq.length ≤ max 8 (4 * s.params.wmax + 1)) :
    Prepared s.params.wmax (preparedRegs i s) := by
  have hconf : (preparedRegs i s).Configured s.params.wmax := by
    have hc := h.ready hl
    obtain ⟨hd, hst, hsh, hpw, hpe, hw, _⟩ := sameConfig_preparedRegs h1 s
    unfold Regs.Configured Regs.width at *
    rwa [hd, hst, hsh, hpw, hpe, hw, preparedRegs_claimed h1]
  refine ⟨hf, fun _ => hconf, fun _ => hconf, hs, fun hne => ⟨List.length_pos_iff.mpr hne, .inr (.inl ?_)⟩⟩
  refine ⟨?_, ?_, ?_, preparedRegs_relErr i s⟩
  · rwa [← preparedRegs_curOp i s] at h1
  · rwa [← preparedRegs_curOp i s] at h8
  · exact (preparedRegs_life i s).trans hl

/-- Every command that passes validation. -/
theorem preparedRegs_prepared {i : Instr} {s : State} (h : s.regs.Sound s.params.wmax)
    (hc : checkAdmitted (opcodeOf i) s.regs.life (ownCheck i s) = .ok) :
    Prepared s.params.wmax (preparedRegs i s) := by
  obtain ⟨ha, hown⟩ := checkAdmitted_eq_ok.mp hc
  have hwidth (hl : s.regs.life = .ready) : s.regs.width ≤ s.params.wmax := by
    obtain ⟨_, _, hw, _⟩ := h.ready hl
    exact hw
  have hready (h1 : opcodeOf i ≠ 1) (h8 : opcodeOf i ≠ 8) := ready_of_admitted h1 h8 ha
  cases i with
  | init pwrEn warn width d st sh pw =>
    obtain ⟨hw1, hw2, hnodup⟩ := configCheck_eq_ok.mp hown
    have hconf : (preparedRegs (.init pwrEn warn width d st sh pw) s).Configured s.params.wmax :=
      ⟨rfl, hw1, hw2, hnodup⟩
    have hlen : (initSeq pwrEn).length ≤ max 8 (4 * s.params.wmax + 1) := by
      rw [initSeq_length]
      split <;> omega
    exact ⟨h.fbuf, fun _ => hconf, fun _ => hconf, hlen,
      fun hne => ⟨List.length_pos_iff.mpr hne, .inl ⟨rfl, admitted_init.mp ha, rfl, hconf⟩⟩⟩
  | setBit =>
    exact prepared_bitCommand h (by simp [opcodeOf]) (by simp [opcodeOf])
      (hready (by simp [opcodeOf]) (by simp [opcodeOf])) h.fbuf (by simp [preparedRegs, prepareOf, prepareSetBit])
  | shift | store =>
    exact prepared_bitCommand h (by decide) (by decide) (hready (by decide) (by decide)) h.fbuf
      (le_max_of_le_left (by decide : 2 ≤ 8))
  | clearData =>
    exact prepared_bitCommand h (by decide) (by decide) (hready (by decide) (by decide)) h.fbuf
      (le_max_of_le_left (by decide : 1 ≤ 8))
  | loadFrame len p =>
    have hl := hready (by simp [opcodeOf]) (by simp [opcodeOf])
    have hw := hwidth hl
    refine prepared_bitCommand h (by simp [opcodeOf]) (by simp [opcodeOf]) hl ?_ ?_
    · have hf := h.fbuf
      simp [preparedRegs, prepareOf, prepareLoadFrame, frameBits, Regs.width] at hw ⊢
      omega
    · simp [preparedRegs, prepareOf, prepareLoadFrame, frameBits, Regs.width] at hw ⊢
      omega
  | clear =>
    have hl := hready (by decide) (by decide)
    exact prepared_bitCommand h (by decide) (by decide) hl h.fbuf
      ((Nat.le_succ _).trans (clearSeq_length_le (r := s.regs) (hwidth hl)))
  | release =>
    have hclaimed : (preparedRegs .release s).seq ≠ [] → s.regs.claimed = true ∧
        ∃ l, (preparedRegs .release s).seq = l ++ [.releaseAll] ∧ Txn.releaseAll ∉ l := by
      intro hne
      by_cases hl : s.regs.life = .ready
      · exact ⟨(h.ready hl).1, clearSeq s.regs, releaseSeq_ready hl, releaseAll_notMem (clearSeq_onLines s.regs)⟩
      · by_cases hcl : s.regs.claimed = true
        · exact ⟨hcl, [], (if_neg hl).trans (if_pos hcl), List.not_mem_nil⟩
        · exact absurd ((if_neg hl).trans (if_neg hcl)) hne
    refine ⟨h.fbuf, h.ready, nofun, ?_, fun hne => ⟨List.length_pos_iff.mpr hne, .inr (.inr ⟨rfl, hclaimed hne⟩)⟩⟩
    show (releaseSeq s.regs).length ≤ _
    unfold releaseSeq
    split_ifs with hl hcl
    · rw [List.length_append]
      exact clearSeq_length_le (hwidth hl)
    · exact le_max_of_le_left (by decide)
    · exact Nat.zero_le _

/-- A presented command keeps the registers and the device as the invariant has them. -/
theorem State.Sound.exec {i : Instr} {s t : State} (h : s.Sound) (hr : s.cmdReady = true)
    (he : exec i s = .next t) : t.Sound := by
  obtain ⟨hregs, hdev⟩ := h
  have hbusy : s.regs.busy = false := ((cmdReady_iff s).mp hr).1
  rcases exec_cases hr he with ⟨_, rfl⟩ | ⟨hc, _, rfl⟩ | ⟨hc, hne, rfl⟩
  · exact ⟨⟨hregs.fbuf, hregs.ready, rfl, fun _ => hbusy, hregs.seqLen, by simp [hbusy]⟩, hdev⟩
  · have hp := preparedRegs_prepared hregs hc
    exact ⟨.respond (r := { preparedRegs i s with k := 0 }) hp.fbuf hp.seqLen hp.ready hp.init _, hdev⟩
  · have hp := preparedRegs_prepared hregs hc
    have hstart : (preparedRegs i s).lastStatus = s.regs.lastStatus ∧
        (preparedRegs i s).doneStatus = s.regs.doneStatus ∧ (preparedRegs i s).doneValid = false := by
      cases i <;> exact ⟨rfl, rfl, rfl⟩
    obtain ⟨hlast, hdone, hvalid⟩ := hstart
    refine State.Sound.runAnswers _ (s := started i s) ⟨⟨hp.fbuf, hp.ready, ?_, ?_, hp.seqLen, fun _ => hp.flight hne⟩,
      hdev⟩
    · exact hlast.trans (hregs.status.trans hdone.symm)
    · exact fun hv => absurd (hvalid.symm.trans hv) (by decide)

/-- No step writes the parameters (log entry 2). -/
theorem step_params {s t : State} (h : step s = .next t) : t.params = s.params := by
  rcases step_cases h with ⟨_, rfl⟩ | ⟨_, _, _, rfl⟩ | ⟨hr, _, i, _, he⟩ | ⟨_, _, _, _, rfl⟩ | ⟨_, _, rfl⟩
  · rfl
  · obtain ⟨_, hparams, _⟩ := runAnswers_surroundings (s.regs.seq.length - s.regs.k) s
    exact hparams
  · obtain ⟨_, hparams, _⟩ := exec_sameSurroundings hr he
    exact hparams
  · rfl
  · rfl

/-- A step keeps the registers and the device as the invariant has them. -/
theorem State.Sound.step {s t : State} (hs : s.Sound) (h : step s = .next t) : t.Sound := by
  obtain ⟨hregs, hdev⟩ := hs
  rcases step_cases h with ⟨_, rfl⟩ | ⟨_, _, _, rfl⟩ | ⟨hr, _, i, _, he⟩ | ⟨hr, _, _, _, rfl⟩ | ⟨_, _, rfl⟩
  · refine ⟨.reset _, ?_⟩
    obtain ⟨hsr, hq⟩ := floatLines_lengths s.params.pwrQ s.regs.cfgPwrEn s.dev hdev
    rw [resetEdge_dev]
    split
    · rw [hsr, hq, hdev]
    · exact hdev
  · exact State.Sound.runAnswers _ ⟨hregs, hdev⟩
  · exact State.Sound.exec ⟨hregs, hdev⟩ hr he
  · have hbusy : s.regs.busy = false := ((cmdReady_iff s).mp hr).1
    exact ⟨⟨hregs.fbuf, hregs.ready, rfl, fun _ => hbusy, hregs.seqLen, by simp [hbusy]⟩, hdev⟩
  · exact ⟨⟨hregs.fbuf, hregs.ready, hregs.status, nofun, hregs.seqLen, hregs.flight⟩, hdev⟩

/-! #### The release duty of the host -/

/-- A command that passes validation stands in `CUR_OP` (30_encoding R114). -/
theorem exec_curOp {i : Instr} {s t : State} (hr : s.cmdReady = true)
    (hc : checkAdmitted (opcodeOf i) s.regs.life (ownCheck i s) = .ok) (h : exec i s = .next t) :
    t.regs.curOp = opcodeOf i := by
  rcases exec_latched hr h with ⟨hno, _⟩ | ⟨_, hl⟩
  · exact absurd hc hno
  · obtain ⟨_, _, _, hop, _⟩ := latched_eq_iff.mp hl
    exact hop.trans (preparedRegs_curOp i s)

/-- The header of RELEASE decodes to it whatever the payload (30_encoding R109). -/
theorem decode_release (p : Payload) : decode 0x0000_0000_0000_0008 p = .ok .release :=
  decode_of_fitsRow (i := .release) p (by decide)

/-- A RELEASE of the release duty that stands on the port is the one that is accepted (45_host_sequencer R194). -/
theorem releaseUnderWay_exec {i : Instr} {s t : State} (hr : s.cmdReady = true) (hf : fetchCommand s = .ok i)
    (hv : s.port.cmdValid = true) (h : exec i s = .next t) (hrel : ReleaseUnderWay s) : ReleaseUnderWay t := by
  obtain ⟨hhost, _, hport⟩ := exec_sameSurroundings hr h
  have hoff : t.port.cmdValid = false := by rw [hport]
  unfold ReleaseUnderWay at *
  rw [hhost]
  split
  case isTrue => simp [hoff]
  case isFalse hi =>
    rw [if_neg hi] at hrel
    rcases hrel with ⟨_, hh⟩ | ⟨hno, _⟩
    · have hdec := decode_release (busPayload s.params.wmax s.port.cmdFrame)
      rw [fetchCommand, hh, hdec] at hf
      obtain rfl := Except.ok.inj hf
      exact .inr ⟨hoff, exec_curOp hr (checkAdmitted_release s) h⟩
    · simp [hv] at hno

/-- Nothing but the registers and the device moves while a command goes on. -/
theorem releaseUnderWay_runAnswers (n : Nat) {s : State} (h : ReleaseUnderWay s) :
    ReleaseUnderWay (runAnswers n s) := by
  obtain ⟨hhost, _, hport⟩ := runAnswers_surroundings n s
  obtain ⟨_, _, _, hop, _⟩ := latched_eq_iff.mp (runAnswers_latched n s)
  rwa [ReleaseUnderWay, hhost, hport, hop]

/-- After a reset the host waits for a command of its duty that the block has not accepted (70_reset_and_hazards R252,
R258, R262). -/
theorem releaseUnderWay_resetEdge {s : State}
    (h : s.host.stage = .releasing → s.host.awaiting = true → ReleaseUnderWay s)
    (hst : (resetEdge s).host.stage = .releasing) (haw : (resetEdge s).host.awaiting = true) :
    ReleaseUnderWay (resetEdge s) := by
  rw [resetEdge_host] at hst haw
  rw [hostReset_awaiting, Bool.and_eq_true] at haw
  obtain ⟨ha, hv⟩ := haw
  have hst' : s.host.stage = .releasing := by
    rw [hostReset_stage, if_neg (by simp [hv])] at hst
    exact hst
  have hrel := h hst' ha
  unfold ReleaseUnderWay at *
  rw [resetEdge_host, hostReset_inited, ha, hv, resetEdge_port]
  by_cases hop : opOf s.port.cmdHdr = 1#4
  · simp [hop]
  · have hi : s.host.inited ≠ true := fun hi => hop (by rw [if_pos hi] at hrel; exact hrel hv)
    rw [if_neg hi] at hrel
    rcases hrel with ⟨_, hh⟩ | ⟨hno, _⟩
    · simp [hv, hh]
    · simp [hv] at hno

/-- At an idle edge the host presents a command of its duty, or goes on waiting (45_host_sequencer R194). -/
theorem releaseUnderWay_idleEdge {s : State}
    (h : s.host.stage = .releasing → s.host.awaiting = true → ReleaseUnderWay s)
    (hst : (idleEdge s).host.stage = .releasing) (haw : (idleEdge s).host.awaiting = true) :
    ReleaseUnderWay (idleEdge s) := by
  rw [idleEdge_host] at hst haw
  cases hc : (hostAct s.params s.regs.claimed (hostReceive s.regs s.host)).2 with
  | some c =>
    obtain ⟨_, _, hstage, _, hinit, hduty⟩ := hostAct_presents hc
    unfold ReleaseUnderWay
    rw [idleEdge_host, hinit, idleEdge_port, hc]
    rcases hduty (hstage ▸ hst) with rfl | ⟨x, _, _, rfl⟩
    · rw [opOf_release]
      exact .inl ⟨rfl, (by decide : (encode .release).1 = 0x0000_0000_0000_0008)⟩
    · rw [opOf_hostInit]
      exact fun _ => opOf_hostInit x
  | none =>
    obtain ⟨hawait, hinit, _⟩ := hostAct_silent hc
    rw [hawait] at haw
    obtain ⟨ha, _, hstage⟩ := hostReceive_awaiting haw
    rw [hostAct_awaiting haw, hstage] at hst
    have hrel := h hst ha
    unfold ReleaseUnderWay at *
    rw [idleEdge_host, hinit, hostReceive_inited, idleEdge_port, hc]
    exact hrel

/-- A step keeps the host's release duty as the invariant has it. -/
theorem step_releasing {s t : State} (hi : s.host.stage = .releasing → s.host.awaiting = true → ReleaseUnderWay s)
    (h : step s = .next t) (hst : t.host.stage = .releasing) (haw : t.host.awaiting = true) : ReleaseUnderWay t := by
  rcases step_cases h with ⟨_, rfl⟩ | ⟨_, _, _, rfl⟩ | ⟨hr, hv, i, hf, he⟩ | ⟨hr, hv, e, hf, rfl⟩ | ⟨_, _, rfl⟩
  · exact releaseUnderWay_resetEdge hi hst haw
  · obtain ⟨hhost, _, _⟩ := runAnswers_surroundings (s.regs.seq.length - s.regs.k) s
    rw [hhost] at hst haw
    exact releaseUnderWay_runAnswers _ (hi hst haw)
  · obtain ⟨hhost, _, _⟩ := exec_sameSurroundings hr he
    rw [hhost] at hst haw
    exact releaseUnderWay_exec hr hf hv he (hi hst haw)
  · have hrel := hi hst haw
    unfold ReleaseUnderWay at *
    rw [refusedWith_host, refusedWith_port]
    split
    · exact nofun
    · rename_i hinit
      rw [if_neg hinit] at hrel
      rcases hrel with ⟨_, hh⟩ | ⟨hno, _⟩
      · rw [fetchCommand, hh, decode_release] at hf
        cases hf
      · simp [hv] at hno
  · exact releaseUnderWay_idleEdge hi hst haw

/-- Settles O39: the registers and the device (`State.Sound.step`) and the host's duty (`step_releasing`). -/
theorem stepKeepsInvariant : Obligations.StepKeepsInvariant := by
  unfold Obligations.StepKeepsInvariant
  intro s t hi h
  obtain ⟨hregs, hdev⟩ := State.Sound.step ⟨hi.sound, hi.stages⟩ h
  exact ⟨step_params h ▸ hi.wmax, hregs.fbuf, hdev, hregs.ready, hregs.status, hregs.done, hregs.seqLen, hregs.flight,
    step_releasing hi.releasing h⟩

end Sys2Proof.Machine

/-! ### How a command in flight goes on, or ends: 10_state R33, R35; 30_encoding R116; 60_exceptions R225 -/

namespace Sys2Proof.Machine

/-- The answers after which a command goes on (30_encoding R116, 42_clear_release R166). -/
theorem answered_goes_on {r : Regs} {t : Txn} {a : Answer} (hb : (r.answered t a).busy = true) :
    (a = .ok ∧ r.k + 1 < r.seq.length ∧ r.answered t a = (r.shadow t a).atK (r.k + 1)) ∨
      (a = .err ∧ r.curOp = 8 ∧ t ≠ .releaseAll ∧
        r.answered t a = { r.shadow t a with relErr := true, k := r.seq.length - 1 }) := by
  rcases answered_cases r t a with h | ⟨_, _, h⟩ | h | ⟨_, _, h⟩
  · exact .inl h
  · simp [h, respond_eq] at hb
  · exact .inr h
  · simp [h, abort_eq] at hb

/-- The answers with which a command in flight ends (30_encoding R116, 60_exceptions R225). -/
theorem answered_ends {r : Regs} {t : Txn} {a : Answer} (hb : r.busy = true) (he : (r.answered t a).busy = false) :
    (a = .ok ∧ r.seq.length ≤ r.k + 1 ∧
        r.answered t a = (r.shadow t a).respond (if r.relErr then .backendIo else .ok)) ∨
      (a = .err ∧ (r.curOp = 8 → t = .releaseAll) ∧ r.answered t a = (r.shadow t a).abort .backendIo) := by
  rcases answered_cases r t a with ⟨_, _, h⟩ | h | ⟨_, _, _, h⟩ | h
  · simp [h, hb] at he
  · exact .inl h
  · simp [h, hb] at he
  · exact .inr h

/-- How a command can end so that the lifecycle changes (10_state R33, R35). -/
def Regs.ChangedLife (r : Regs) : Prop :=
  r.busy = false ∧ r.doneValid = true ∧
    ((r.life = .ready ∧ r.curOp = 1 ∧ r.lastStatus = .ok) ∨
      (r.life = .unconfigured ∧ r.curOp = 1 ∧ r.lastStatus = .backendIo) ∨
      (r.life = .released ∧ r.curOp = 8 ∧ r.claimed = false))

theorem respond_changedLife (c : Status) (r : Regs) : (r.respond c).life = r.life ∨ (r.respond c).ChangedLife := by
  rw [respond_eq]
  by_cases hop : r.curOp = 1#4 ∧ c = .ok
  · exact .inr ⟨rfl, rfl, .inl ⟨by simp [hop], hop⟩⟩
  · by_cases h8 : r.curOp = 8#4
    · exact .inr ⟨rfl, rfl, .inr (.inr ⟨by simp [h8], h8, by simp [h8]⟩)⟩
    · exact .inl (by simp [hop, h8])

theorem abort_changedLife (r : Regs) :
    (r.abort .backendIo).life = r.life ∨ (r.abort .backendIo).ChangedLife := by
  rw [abort_eq]
  by_cases hop : r.curOp = 1#4
  · exact .inr ⟨rfl, rfl, .inr (.inl ⟨by simp [hop], hop, rfl⟩)⟩
  · exact .inl (by simp [hop])

/-- While a command goes on the lifecycle stays; its end may change it (10_state R33). -/
theorem runAnswers_changedLife (n : Nat) (s : State) (hk : s.regs.busy = true → s.regs.k < s.regs.seq.length) :
    (runAnswers n s).regs.life = s.regs.life ∨ (runAnswers n s).regs.ChangedLife := by
  refine runAnswers_induct (M := fun s u => u.regs.life = s.regs.life ∨ u.regs.ChangedLife) ?_ ?_ ?_ ?_ n s hk
  · exact fun s => .inl rfl
  · exact fun s _ => .inl rfl
  · intro s t a hb ht he
    rw [answerEdge_popRsp_regs hb ht a] at he ⊢
    rcases answered_ends (r := s.regs.tick) hb he with ⟨_, _, h⟩ | ⟨_, _, h⟩ <;> rw [h]
    · simpa using respond_changedLife _ (s.regs.tick.shadow t a)
    · simpa using abort_changedLife (s.regs.tick.shadow t a)
  · intro s t a u hb ht hgo ih
    have hlife : (answerEdge a s.popRsp).regs.life = s.regs.life := by
      rw [answerEdge_popRsp_regs hb ht a] at hgo ⊢
      rcases answered_goes_on hgo with ⟨_, _, h⟩ | ⟨_, _, _, h⟩ <;> rw [h] <;> simp
    rwa [hlife] at ih

/-- Settles O42: a command changes the lifecycle where it ends, at once or in its run (`runAnswers_changedLife`). -/
theorem lifecycleTransitions : Obligations.LifecycleTransitions := by
  unfold Obligations.LifecycleTransitions
  intro s t _ hl h hne
  suffices t.regs.life = s.regs.life ∨ t.regs.ChangedLife from this.resolve_left hne
  rcases step_cases h with ⟨hp, _⟩ | ⟨_, _, hk, rfl⟩ | ⟨hr, _, i, _, he⟩ | ⟨_, _, _, _, rfl⟩ | ⟨_, _, rfl⟩
  · omega
  · exact runAnswers_changedLife _ s fun _ => hk
  · rw [← preparedRegs_life i s]
    rcases exec_cases hr he with ⟨_, rfl⟩ | ⟨_, _, rfl⟩ | ⟨_, hs, rfl⟩
    · exact .inl (preparedRegs_life i s).symm
    · exact respond_changedLife .ok { preparedRegs i s with k := 0 }
    · exact runAnswers_changedLife _ (started i s) fun _ => started_pointing hs
  · exact .inl rfl
  · exact .inl rfl

/-! ### The trace of a command: 20_memory R77, 42_clear_release R166, 70_reset_and_hazards R267 -/

theorem InOrder.nil (seq : List Txn) : InOrder seq [] := ⟨List.nil_prefix, nofun⟩

/-- The first transaction, however answered. -/
theorem InOrder.single (t : Txn) (seq : List Txn) (a : Answer) : InOrder (t :: seq) [(t, a)] :=
  ⟨by simp, nofun⟩

/-- The first transaction answered OK, and then the rest in order. -/
theorem InOrder.cons_ok {seq : List Txn} {l : List (Txn × Answer)} (h : InOrder seq l) (t : Txn) :
    InOrder (t :: seq) ((t, .ok) :: l) := by
  obtain ⟨hp, hok⟩ := h
  refine ⟨by simpa using hp, fun e he => ?_⟩
  cases l with
  | nil => cases he
  | cons x l =>
    rw [List.dropLast_cons_of_ne_nil (List.cons_ne_nil _ _), List.mem_cons] at he
    rcases he with rfl | he
    · rfl
    · exact hok e he

theorem ReleaseInOrder.cons_ok {seq : List Txn} {l : List (Txn × Answer)} (h : ReleaseInOrder seq l) (t : Txn) :
    ReleaseInOrder (t :: seq) ((t, .ok) :: l) := by
  rcases h with h | ⟨p, t', q, rfl, hp, hne, hq⟩
  · exact .inl (h.cons_ok t)
  · exact .inr ⟨(t, .ok) :: p, t', q, rfl, hp.cons_ok t, hne, hq⟩

/-- The trace of a RELEASE that has its `ReleaseAll` alone left to issue. -/
theorem ReleaseInOrder.releaseAll_only {l : List (Txn × Answer)} (h : ReleaseInOrder [.releaseAll] l) :
    l = [] ∨ ∃ a, l = [(.releaseAll, a)] := by
  have only {l : List (Txn × Answer)} (hp : l.map Prod.fst <+: [.releaseAll]) :
      l = [] ∨ ∃ a, l = [(.releaseAll, a)] := by
    match l, hp with
    | [], _ => exact .inl rfl
    | [(t, a)], hp => exact .inr ⟨a, by simpa using hp⟩
    | _ :: _ :: _, hp => simpa using hp.length_le
  rcases h with ⟨hp, _⟩ | ⟨p, t, q, _, ⟨hp, _⟩, hne, _⟩
  · exact only hp
  · rcases only hp with h | ⟨a, h⟩
    · simp at h
    · cases p with
      | nil => simp [hne] at h
      | cons => simp at h

/-- The transaction at `K` is the first of those still to issue. -/
theorem drop_k_eq {r : Regs} {t : Txn} (ht : r.seq[r.k]? = some t) : r.seq.drop r.k = t :: r.seq.drop (r.k + 1) := by
  obtain ⟨hk, rfl⟩ := List.getElem?_eq_some_iff.mp ht
  exact List.drop_eq_getElem_cons hk

/-- The edges of a command other than RELEASE issue its transactions in order from `K` (20_memory R77). -/
theorem runAnswers_inOrder (n : Nat) (s : State) (hk : s.regs.busy = true → s.regs.k < s.regs.seq.length)
    (h8 : s.regs.curOp ≠ 8) :
    ∃ l, (runAnswers n s).trace = s.trace ++ l ∧ InOrder (s.regs.seq.drop s.regs.k) l := by
  refine runAnswers_induct (M := fun s u => s.regs.curOp ≠ 8 →
    ∃ l, u.trace = s.trace ++ l ∧ InOrder (s.regs.seq.drop s.regs.k) l) ?_ ?_ ?_ ?_ n s hk h8
  · exact fun s _ => ⟨[], by simp, .nil _⟩
  · exact fun s _ _ => ⟨[], by simp, .nil _⟩
  · intro s t a hb ht _ _
    refine ⟨[(t, a)], answerEdge_popRsp_trace hb ht a, ?_⟩
    rw [drop_k_eq ht]
    exact .single ..
  · intro s t a u hb ht hgo ih h8
    have hregs := answerEdge_popRsp_regs hb ht a
    have htrace := answerEdge_popRsp_trace hb ht a
    rw [hregs] at hgo ih
    rcases answered_goes_on hgo with ⟨rfl, _, h⟩ | ⟨_, hop, _⟩
    · rw [h] at ih
      obtain ⟨l, hl, ho⟩ := ih (by simpa using h8)
      refine ⟨(t, .ok) :: l, by rw [hl, htrace, List.append_assoc, List.singleton_append], ?_⟩
      rw [drop_k_eq ht]
      exact InOrder.cons_ok (by simpa using ho) t
    · exact absurd hop h8

/-- The edges of a RELEASE do so too, but that a failed transaction of its clear phase is followed by the `ReleaseAll`
alone (42_clear_release R166). -/
theorem runAnswers_releaseInOrder (n : Nat) (s : State) (hk : s.regs.busy = true → s.regs.k < s.regs.seq.length)
    {c : List Txn} (hs : s.regs.seq = c ++ [.releaseAll]) :
    ∃ l, (runAnswers n s).trace = s.trace ++ l ∧ ReleaseInOrder (s.regs.seq.drop s.regs.k) l := by
  refine runAnswers_induct (M := fun s u => s.regs.seq = c ++ [.releaseAll] →
    ∃ l, u.trace = s.trace ++ l ∧ ReleaseInOrder (s.regs.seq.drop s.regs.k) l) ?_ ?_ ?_ ?_ n s hk hs
  · exact fun s _ => ⟨[], by simp, .inl (.nil _)⟩
  · exact fun s _ _ => ⟨[], by simp, .inl (.nil _)⟩
  · intro s t a hb ht _ _
    refine ⟨[(t, a)], answerEdge_popRsp_trace hb ht a, .inl ?_⟩
    rw [drop_k_eq ht]
    exact .single ..
  · intro s t a u hb ht hgo ih hs
    have hregs := answerEdge_popRsp_regs hb ht a
    have htrace := answerEdge_popRsp_trace hb ht a
    rw [hregs] at hgo ih
    rcases answered_goes_on hgo with ⟨rfl, _, h⟩ | ⟨rfl, _, hne, h⟩
    · rw [h] at ih
      obtain ⟨l, hl, ho⟩ := ih (by simpa using hs)
      refine ⟨(t, .ok) :: l, by rw [hl, htrace, List.append_assoc, List.singleton_append], ?_⟩
      rw [drop_k_eq ht]
      exact ReleaseInOrder.cons_ok (by simpa using ho) t
    · rw [h] at ih
      obtain ⟨l, hl, ho⟩ := ih (by simpa using hs)
      have hlast : ReleaseInOrder [.releaseAll] l := by simpa [hs] using ho
      refine ⟨(t, .err) :: l, by rw [hl, htrace, List.append_assoc, List.singleton_append],
        .inr ⟨[], t, l, rfl, ?_, hne, hlast.releaseAll_only⟩⟩
      rw [drop_k_eq ht]
      exact .single ..

/-- The edges of a command only add to the trace (20_memory R77). -/
theorem runAnswers_trace_grows (n : Nat) (s : State) : ∃ l, (runAnswers n s).trace = s.trace ++ l := by
  refine runAnswers_keeps (P := fun u => ∃ l, u.trace = s.trace ++ l) (fun u h => h) ?_ n s ⟨[], by simp⟩
  rintro a u _ ⟨l, hl⟩
  cases ho : u.popRsp.regs.outstanding with
  | none =>
    rw [answerEdge_none ho]
    exact ⟨l, hl⟩
  | some t =>
    rw [answerEdge_some ho]
    exact ⟨l ++ [(t, a)], by simp [hl]⟩

/-- What a RELEASE has to issue ends with its `ReleaseAll`, if it is anything (42_clear_release R164). -/
theorem releaseSeq_eq_append {r : Regs} (h : releaseSeq r ≠ []) : ∃ c, releaseSeq r = c ++ [.releaseAll] := by
  unfold releaseSeq at *
  split_ifs at * with hl hc
  · exact ⟨_, rfl⟩
  · exact ⟨[], rfl⟩
  · exact absurd rfl h

/-- A step outside reset of a command in flight is its run (log entry 5). -/
theorem step_busy {s t : State} (hl : s.port.rstLow = 0) (hb : s.regs.busy = true) (h : step s = .next t) :
    s.regs.k < s.regs.seq.length ∧ t = runAnswers (s.regs.seq.length - s.regs.k) s := by
  have notReady : s.cmdReady ≠ true := by simp [cmdReady_iff, hb]
  rcases step_cases h with ⟨hp, _⟩ | ⟨_, _, hk, ht⟩ | ⟨hr, _⟩ | ⟨hr, _⟩ | ⟨hr, _⟩
  · omega
  · exact ⟨hk, ht⟩
  all_goals exact absurd hr notReady

/-- Settles O43: by the runs of a command in flight (`runAnswers_inOrder`, `runAnswers_releaseInOrder`), which an
accepted command begins at its first transaction. -/
theorem traceFollowsSeq : Obligations.TraceFollowsSeq := by
  unfold Obligations.TraceFollowsSeq
  refine ⟨fun s t hl h => ?grows, fun s t i hr hi h => ?accepted, fun s t hr h => ?release,
    fun s t hl hb h8 h => ?goesOn, fun s t hinv hl hb h8 h => ?releaseGoesOn⟩
  case grows =>
    rcases step_cases h with ⟨hp, _⟩ | ⟨_, _, _, rfl⟩ | ⟨hr, _, i, _, he⟩ | ⟨_, _, _, _, rfl⟩ | ⟨_, _, rfl⟩
    · omega
    · exact runAnswers_trace_grows _ s
    · rcases exec_cases hr he with ⟨_, rfl⟩ | ⟨_, _, rfl⟩ | ⟨_, _, rfl⟩
      · exact ⟨[], by simp⟩
      · exact ⟨[], by simp [concluded]⟩
      · exact runAnswers_trace_grows _ (started i s)
    · exact ⟨[], by simp⟩
    · exact ⟨[], by simp⟩
  case accepted =>
    rcases exec_cases hr h with ⟨_, rfl⟩ | ⟨_, _, rfl⟩ | ⟨_, hne, rfl⟩
    · exact ⟨[], by simp, .nil _⟩
    · exact ⟨[], by simp [concluded], .nil _⟩
    · rw [runAnswers_seq]
      refine runAnswers_inOrder _ (started i s) (fun _ => started_pointing hne) ?_
      exact fun h8 => hi ((rowOf_eq_releaseRow i).mpr ((preparedRegs_curOp i s).symm.trans h8))
  case release =>
    rcases exec_cases hr h with ⟨_, rfl⟩ | ⟨_, _, rfl⟩ | ⟨_, hne, rfl⟩
    · exact ⟨[], by simp, .inl (.nil _)⟩
    · exact ⟨[], by simp [concluded], .inl (.nil _)⟩
    · rw [runAnswers_seq]
      obtain ⟨c, hc⟩ := releaseSeq_eq_append hne
      exact runAnswers_releaseInOrder _ (started .release s) (fun _ => started_pointing hne) hc
  case goesOn =>
    obtain ⟨hk, rfl⟩ := step_busy hl hb h
    exact ⟨runAnswers_seq _ s, runAnswers_inOrder _ s (fun _ => hk) h8⟩
  case releaseGoesOn =>
    obtain ⟨hk, rfl⟩ := step_busy hl hb h
    obtain ⟨_, ⟨h1, _⟩ | ⟨_, hno, _⟩ | ⟨_, _, c, hc, _⟩⟩ := hinv.flight hb
    · simp [h8] at h1
    · exact absurd h8 hno
    · exact ⟨runAnswers_seq _ s, runAnswers_releaseInOrder _ s (fun _ => hk) hc⟩

/-- A command that ends took an edge for each transaction it issued (70_reset_and_hazards R267). -/
theorem runAnswers_edges (n : Nat) (s : State) (hk : s.regs.busy = true → s.regs.k < s.regs.seq.length)
    (he : (runAnswers n s).regs.busy = false) :
    ∃ l, (runAnswers n s).trace = s.trace ++ l ∧ (runAnswers n s).cycle = s.cycle + l.length := by
  refine runAnswers_induct (M := fun s u => u.regs.busy = false →
    ∃ l, u.trace = s.trace ++ l ∧ u.cycle = s.cycle + l.length) ?_ ?_ ?_ ?_ n s hk he
  · exact fun s _ => ⟨[], by simp⟩
  · exact fun s hb he => absurd (hb.symm.trans he) (by decide)
  · intro s t a hb ht _ _
    exact ⟨[(t, a)], answerEdge_popRsp_trace hb ht a, by simp⟩
  · intro s t a u hb ht _ ih he
    obtain ⟨l, hl, hc⟩ := ih he
    have htrace := answerEdge_popRsp_trace hb ht a
    refine ⟨(t, a) :: l, by rw [hl, htrace, List.append_assoc, List.singleton_append], ?_⟩
    rw [hc, answerEdge_cycle, popRsp_cycle, List.length_cons]
    omega

/-- Settles O44: the acceptance edge, and the edges of the run (`runAnswers_edges`). -/
theorem edgesOfACommand : Obligations.EdgesOfACommand := by
  unfold Obligations.EdgesOfACommand
  intro s t i hr h he
  rcases exec_cases hr h with ⟨_, rfl⟩ | ⟨_, _, rfl⟩ | ⟨_, hne, rfl⟩
  · exact ⟨[], by simp, rfl⟩
  · exact ⟨[], by simp [concluded], rfl⟩
  · exact runAnswers_edges _ (started i s) (fun _ => started_pointing hne) he

end Sys2Proof.Machine

/-! ### Commands that end without a backend error: 20_memory R93, 42_clear_release R169 -/

namespace Sys2Proof.Machine

/-- A command other than RELEASE that ends in its run with a status but BACKEND_IO had every answer OK. -/
theorem runAnswers_all_ok (n : Nat) (s : State) (hk : s.regs.k < s.regs.seq.length) (hb : s.regs.busy = true)
    (h8 : s.regs.curOp ≠ 8) (he : (runAnswers n s).regs.busy = false)
    (hok : (runAnswers n s).regs.lastStatus ≠ .backendIo) :
    (runAnswers n s).dev =
      Device.transactAll s.params.pwrQ s.regs.cfgPwrEn (s.regs.seq.drop s.regs.k) s.dev := by
  refine runAnswers_induct (M := fun s u => s.regs.busy = true → s.regs.curOp ≠ 8 → u.regs.busy = false →
    u.regs.lastStatus ≠ .backendIo →
    u.dev = Device.transactAll s.params.pwrQ s.regs.cfgPwrEn (s.regs.seq.drop s.regs.k) s.dev)
    ?_ ?_ ?_ ?_ n s (fun _ => hk) hb h8 he hok
  · exact fun s hb _ he _ => absurd (hb.symm.trans he) (by decide)
  · exact fun s hb _ _ he _ => absurd (hb.symm.trans he) (by decide)
  · intro s t a hb ht he _ _ _ hok
    rw [answerEdge_popRsp_regs hb ht a] at he hok
    rcases answered_ends (r := s.regs.tick) hb he with ⟨rfl, hlast, _⟩ | ⟨_, _, h⟩
    · have hnil : s.regs.seq.drop (s.regs.k + 1) = [] := List.drop_eq_nil_of_le hlast
      rw [answerEdge_popRsp_dev hb ht, drop_k_eq ht, hnil]
      rfl
    · exact absurd (by rw [h, abort_eq]) hok
  · intro s t a u hb ht hgo ih _ h8 he hok
    obtain ⟨⟨_, _, _, _, hpwr, _⟩, _, _, hop, hseq⟩ := latched_eq_iff.mp (answerEdge_latched a s.popRsp)
    have hdev := ih hgo (fun h => h8 (hop.symm.trans h)) he hok
    rw [answerEdge_popRsp_regs hb ht a] at hgo
    rcases answered_goes_on hgo with ⟨rfl, _, h⟩ | ⟨_, h8', _⟩
    · have hk' : (answerEdge .ok s.popRsp).regs.k = s.regs.k + 1 := by
        rw [answerEdge_popRsp_regs hb ht, h]
        rfl
      rw [answerEdge_params, hpwr, hseq, hk', answerEdge_popRsp_dev hb ht] at hdev
      rw [hdev, drop_k_eq ht]
      rfl
    · exact absurd h8' h8

/-- The lines of the device at their idle levels (40_init R133). -/
def Device.AtIdle (e : Bool) (d : Device) : Prop :=
  d.level .shcp = .zero ∧ d.level .stcp = .zero ∧ (e = true → d.level .pwr = .one)

theorem linesKnown_iff (s : State) : LinesKnown s ↔ s.dev.AtIdle s.regs.cfgPwrEn := Iff.rfl

/-- A write that is answered OK sets the level of its line (20_memory R89). -/
theorem transact_write_level (pq : PwrQEffect) (e : Bool) (r : Role) (v : Bool) (d : Device) :
    (d.transact pq e (.write r v) .ok).level = Function.update d.level r (Cell.ofBool v) := drive_level ..

theorem atIdle_data {pq : PwrQEffect} {e : Bool} {d : Device} (h : d.AtIdle e) (v : Bool) :
    (Device.transactAll pq e [.write .data v] d).AtIdle e := by
  simpa [Device.AtIdle, Device.transactAll, transact_write_level] using h

/-- A pulse of a clock leaves it low (20_memory R76). -/
theorem atIdle_pulse {pq : PwrQEffect} {e : Bool} {d : Device} (h : d.AtIdle e) {r : Role}
    (hr : r = .shcp ∨ r = .stcp) :
    (Device.transactAll pq e (pulse r) d).AtIdle e := by
  obtain ⟨hshcp, hstcp, hpwr⟩ := h
  rcases hr with rfl | rfl <;>
    simpa [Device.AtIdle, Device.transactAll, pulse, transact_write_level, Cell.ofBool, hshcp, hstcp] using hpwr

theorem atIdle_loadSeq {pq : PwrQEffect} {e : Bool} {d : Device} (h : d.AtIdle e) (f : List Bool) :
    (Device.transactAll pq e (loadSeq f) d).AtIdle e := by
  induction f generalizing d with
  | nil => exact h
  | cons b f ih =>
    rw [loadSeq, transactAll_append]
    have hsplit : elemSeq b = [.write .data b] ++ (pulse .shcp ++ [.write .data false]) := rfl
    rw [hsplit, transactAll_append, transactAll_append]
    exact ih (atIdle_data (atIdle_pulse (atIdle_data h b) (.inl rfl)) false)

theorem atIdle_clearSeq {pq : PwrQEffect} {r : Regs} {d : Device} (h : d.AtIdle r.cfgPwrEn) :
    (Device.transactAll pq r.cfgPwrEn (clearSeq r) d).AtIdle r.cfgPwrEn := by
  cases hp : r.cfgPwrEn with
  | true =>
    rw [hp] at h
    rw [clearSeq_power hp]
    obtain ⟨_, hstcp, _⟩ := h
    simpa [Device.AtIdle, Device.transactAll, powerSeq, transact_write_level, Cell.ofBool] using hstcp
  | false =>
    rw [clearSeq_noPower hp]
    exact atIdle_loadSeq (hp ▸ h) _

/-- A command other than INIT and RELEASE whose transactions are all answered OK leaves the lines idle. -/
theorem atIdle_preparedRegs {i : Instr} (h1 : opcodeOf i ≠ 1) (h8 : opcodeOf i ≠ 8) {pq : PwrQEffect} {s : State}
    (h : s.dev.AtIdle s.regs.cfgPwrEn) :
    (Device.transactAll pq s.regs.cfgPwrEn (preparedRegs i s).seq s.dev).AtIdle s.regs.cfgPwrEn := by
  cases i with
  | init => exact absurd rfl h1
  | setBit => exact atIdle_data h _
  | shift => exact atIdle_pulse h (.inl rfl)
  | clearData => exact atIdle_data h _
  | loadFrame => exact atIdle_loadSeq h _
  | store => exact atIdle_pulse h (.inr rfl)
  | clear => exact atIdle_clearSeq (r := s.regs) h
  | release => exact absurd rfl h8

/-- Settles O48: in READY the command is neither INIT, which is refused, nor RELEASE; with every answer OK
(`runAnswers_all_ok`) its writes leave the lines idle (`atIdle_preparedRegs`). -/
theorem healthyCommandsKeepLines : Obligations.HealthyCommandsKeepLines := by
  unfold Obligations.HealthyCommandsKeepLines
  intro s t i hr hlines hi h hend hok
  rw [linesKnown_iff] at hlines
  have h8 : opcodeOf i ≠ 8 := mt (rowOf_eq_releaseRow i).mpr hi
  have hbusy : s.regs.busy = false := ((cmdReady_iff s).mp hr.1).1
  have notInit (hc : checkAdmitted (opcodeOf i) s.regs.life (ownCheck i s) = .ok) : opcodeOf i ≠ 1 := by
    obtain ⟨ha, _⟩ := checkAdmitted_eq_ok.mp hc
    rw [hr.2] at ha
    exact admitted_ready.mp ha
  have ready (h1 : opcodeOf i ≠ 1) : ReadyForCommand t :=
    readyForCommand_of_same hr (exec_sameSurroundings hr.1 h) (hend.trans hbusy.symm) (exec_life hr.1 h1 h8 h).1
  rcases exec_cases hr.1 h with ⟨_, rfl⟩ | ⟨hc, _, rfl⟩ | ⟨hc, hne, rfl⟩
  · exact ⟨hlines, readyForCommand_of_same hr ⟨rfl, rfl, rfl⟩ rfl rfl⟩
  · have h1 := notInit hc
    refine ⟨?_, ready h1⟩
    rw [linesKnown_iff, concluded, respond_eq]
    dsimp only
    rwa [preparedRegs_cfgPwrEn h1]
  · have h1 := notInit hc
    refine ⟨?_, ready h1⟩
    have hpwr := preparedRegs_cfgPwrEn h1 s
    have hdev := runAnswers_all_ok _ (started i s) (started_pointing hne) rfl
      ((preparedRegs_curOp i s).trans_ne h8) hend hok
    obtain ⟨⟨_, _, _, _, hcfg, _⟩, _⟩ :=
      latched_eq_iff.mp (runAnswers_latched (preparedRegs i s).seq.length (started i s))
    rw [linesKnown_iff, hdev, hcfg]
    show (Device.transactAll s.params.pwrQ (preparedRegs i s).cfgPwrEn (preparedRegs i s).seq s.dev).AtIdle
      (preparedRegs i s).cfgPwrEn
    rw [hpwr]
    exact atIdle_preparedRegs h1 h8 hlines

/-- An INIT that ends in its run with BACKEND_IO falls back to UNCONFIGURED and keeps its claim (40_init R134). -/
theorem runAnswers_init_failed (n : Nat) (s : State) (hk : s.regs.k < s.regs.seq.length) (hb : s.regs.busy = true)
    (h1 : s.regs.curOp = 1) (hrel : s.regs.relErr = false) (he : (runAnswers n s).regs.busy = false)
    (hbad : (runAnswers n s).regs.lastStatus = .backendIo) :
    (runAnswers n s).regs.life = .unconfigured ∧ (runAnswers n s).regs.claimed = s.regs.claimed := by
  refine runAnswers_induct (M := fun s u => s.regs.busy = true → s.regs.curOp = 1 → s.regs.relErr = false →
    u.regs.busy = false → u.regs.lastStatus = .backendIo →
    u.regs.life = .unconfigured ∧ u.regs.claimed = s.regs.claimed)
    ?_ ?_ ?_ ?_ n s (fun _ => hk) hb h1 hrel he hbad
  · exact fun s hb _ _ he _ => absurd (hb.symm.trans he) (by decide)
  · exact fun s hb _ _ _ he _ => absurd (hb.symm.trans he) (by decide)
  · intro s t a hb ht he _ h1 hrel _ hbad
    rw [answerEdge_popRsp_regs hb ht a] at he hbad ⊢
    rcases answered_ends (r := s.regs.tick) hb he with ⟨_, _, h⟩ | ⟨_, _, h⟩ <;> rw [h] at hbad ⊢
    · simp [respond_eq, hrel] at hbad
    · simp [abort_eq, h1]
  · intro s t a u hb ht hgo ih _ h1 hrel he hbad
    have hregs := answerEdge_popRsp_regs hb ht a
    rcases answered_goes_on (hregs ▸ hgo) with ⟨_, _, h⟩ | ⟨_, h8, _⟩
    · rw [h] at hregs
      rw [hregs] at ih
      simpa using ih (by simpa using hb) (by simpa using h1) (by simpa using hrel) he hbad
    · simp [h1] at h8

/-- No validation answers BACKEND_IO (60_exceptions R221). -/
theorem checkAdmitted_ownCheck_ne_backendIo (i : Instr) (s : State) :
    checkAdmitted (opcodeOf i) s.regs.life (ownCheck i s) ≠ .backendIo := by
  unfold checkAdmitted
  split
  · cases i with
    | init => simp only [ownCheck, configCheck]; split_ifs <;> decide
    | setBit => simp only [ownCheck, checkSetBit]; split_ifs <;> decide
    | loadFrame => simp only [ownCheck, checkLoadFrame]; split_ifs <;> decide
    | shift | clearData | store | clear | release => exact nofun
  · decide

/-- Settles O52: what the failed command leaves (`runAnswers_init_failed`, `exec_life`) is a state in which the block
can accept a RELEASE, in READY (`releaseFromReadyCompletes`) or outside it (`releaseOutsideReadyCompletes`). -/
theorem releaseSucceedsAfterError : Obligations.ReleaseSucceedsAfterError := by
  unfold Obligations.ReleaseSucceedsAfterError
  intro s t i hr h hend hbad
  refine ⟨fun hi => ?init, fun hi h8 => ?other, fun hh => ?release⟩
  case init =>
    have h1 := (rowOf_eq_initRow i).mp hi
    rcases exec_cases hr h with ⟨_, rfl⟩ | ⟨_, hnil, _⟩ | ⟨_, hne, rfl⟩
    · exact absurd hbad (checkAdmitted_ownCheck_ne_backendIo i s)
    all_goals cases i with
      | init pwrEn warn width d st sh pw => ?_
      | _ => cases h1
    · exact absurd hnil (initSeq_ne_nil pwrEn)
    · exact runAnswers_init_failed _ (started (.init pwrEn warn width d st sh pw) s) (started_pointing hne) rfl rfl rfl
        hend hbad
  case other =>
    exact exec_life hr (mt (rowOf_eq_initRow i).mpr hi) (mt (rowOf_eq_releaseRow i).mpr h8) h
  case release =>
    obtain ⟨_, _, hport⟩ := exec_sameSurroundings hr h
    have hready : t.cmdReady = true := by
      rw [cmdReady_iff, hport]
      exact ⟨hend, ((cmdReady_iff s).mp hr).2⟩
    by_cases hl : t.regs.life = .ready
    · obtain ⟨u, hu, hregs, _⟩ := releaseFromReadyCompletes t ⟨hready, hl⟩ (by simpa [hl] using hh)
      exact ⟨u, hu, by simp [hregs]⟩
    · obtain ⟨hclaimed, hunclaimed⟩ := releaseOutsideReadyCompletes t hready hl
      cases hc : t.regs.claimed with
      | true =>
        obtain ⟨u, hu, hregs, _⟩ := hclaimed hc (by simpa [hl] using hh)
        exact ⟨u, hu, by simp [hregs]⟩
      | false =>
        obtain ⟨u, hu, hregs, _⟩ := hunclaimed hc
        exact ⟨u, hu, by simp [hregs, hc]⟩

end Sys2Proof.Machine

/-! ### The raw protocol and the load: 41_bit_protocol R147 -/

namespace Sys2Proof.Machine

/-- Answers in the list come first (20_memory R71). -/
theorem rspAhead_replicate (n : Nat) (ds : List (Option Answer)) (c : Nat) :
    rspAhead n (List.replicate n (some .ok) ++ ds) c = List.replicate n (some .ok) := by
  induction n generalizing c with
  | zero => rfl
  | succ n ih =>
    rw [List.replicate_succ, List.cons_append, rspAhead, List.tail_cons, ih]

theorem healthy_of_draws {n : Nat} {s : State} {ds : List (Option Answer)}
    (h : s.draws = List.replicate n (some .ok) ++ ds) : Healthy n s := by
  rw [Healthy, BackendAnswers, List.length_replicate, h, rspAhead_replicate, List.map_replicate]

/-- Transactions answered OK make the shadows of the shadows alone. -/
theorem shadowAll_lvl_congr (ts : List Txn) {r r' : Regs} (h : r.lvl = r'.lvl) :
    (Regs.shadowAll ts r).lvl = (Regs.shadowAll ts r').lvl := by
  induction ts generalizing r r' with
  | nil => exact h
  | cons t ts ih =>
    refine ih ?_
    cases t with
    | configure role => rw [shadow_configure_lvl, shadow_configure_lvl, h]
    | write role v => rw [shadow_write_lvl, shadow_write_lvl, h]
    | releaseAll => funext role; rw [shadow_releaseAll_lvl, shadow_releaseAll_lvl]

/-- `n` commands have run in READY and issued `ts`, every answer OK. -/
structure RanHealthy (n : Nat) (ts : List Txn) (s t : State) : Prop where
  ready : ReadyForCommand t
  draws : ∀ ds, s.draws = List.replicate ts.length (some .ok) ++ ds → t.draws = ds
  trace : t.trace = s.trace ++ okTrace ts
  dev : t.dev = Device.transactAll s.params.pwrQ s.regs.cfgPwrEn ts s.dev
  lvl : t.regs.lvl = (Regs.shadowAll ts s.regs).lvl
  cycle : t.cycle = s.cycle + n + ts.length
  params : t.params = s.params
  pwrEn : t.regs.cfgPwrEn = s.regs.cfgPwrEn

theorem RanHealthy.trans {n m : Nat} {ts us : List Txn} {s t u : State} (h : RanHealthy n ts s t)
    (h' : RanHealthy m us t u) : RanHealthy (n + m) (ts ++ us) s u where
  ready := h'.ready
  draws ds hd := by
    rw [List.length_append, List.replicate_add, List.append_assoc] at hd
    exact h'.draws ds (h.draws _ hd)
  trace := by simp [h'.trace, h.trace, okTrace]
  dev := by rw [h'.dev, h.params, h.pwrEn, h.dev, transactAll_append]
  lvl := by rw [h'.lvl, shadowAll_append, shadowAll_lvl_congr us h.lvl]
  cycle := by rw [h'.cycle, h.cycle, List.length_append]; omega
  params := h'.params.trans h.params
  pwrEn := h'.pwrEn.trans h.pwrEn

/-- One command other than INIT and RELEASE, all its answers OK and in the list. -/
theorem exec_ranHealthy {i : Instr} {s : State} {ts : List Txn} {ds : List (Option Answer)} (hr : ReadyForCommand s)
    (h1 : opcodeOf i ≠ 1) (h8 : opcodeOf i ≠ 8) (hown : ownCheck i s = .ok) (hseq : (preparedRegs i s).seq = ts)
    (hne : ts ≠ []) (hd : s.draws = List.replicate ts.length (some .ok) ++ ds) :
    ∃ t, exec i s = .next t ∧ RanHealthy 1 ts s t := by
  have hvalid : checkAdmitted (opcodeOf i) s.regs.life (ownCheck i s) = .ok := by
    rw [checkAdmitted_ready hr.2 h1, hown]
  have hexec := exec_healthy hr.1 hvalid rfl hseq hne (preparedRegs_relErr i s) (healthy_of_draws hd)
  have hlvl : (preparedRegs i s).lvl = s.regs.lvl := by cases i <;> rfl
  have hbusy : s.regs.busy = false := ((cmdReady_iff s).mp hr.1).1
  refine ⟨_, hexec, ?_, fun ds hd => ?_, rfl, ?_, ?_, rfl, rfl, ?_⟩
  · refine readyForCommand_of_same hr ⟨rfl, rfl, rfl⟩ ?_ (exec_life hr.1 h1 h8 hexec).1
    rw [respond_eq, hbusy]
  · rw [hd]
    exact List.drop_left' (by simp)
  · rw [preparedRegs_cfgPwrEn h1]
  · rw [respond_lvl]
    exact shadowAll_lvl_congr ts hlvl
  · obtain ⟨⟨_, _, _, _, hp, _⟩, _⟩ := exec_latches hr.1 hexec (sameConfig_preparedRegs h1 s)
    exact hp

/-- The raw protocol of one element issues the transactions of the element (41_bit_protocol R144, R147). -/
theorem rawLoad_cons {s : State} {b : Bool} {ds : List (Option Answer)} (hr : ReadyForCommand s)
    (hd : s.draws = List.replicate 4 (some .ok) ++ ds) :
    ∃ t, (∀ f, rawLoad (b :: f) s = rawLoad f t) ∧ RanHealthy 3 (elemSeq b) s t := by
  have hsym : sym (if b then 0b01#2 else 0b00#2) = some b := by cases b <;> rfl
  obtain ⟨s1, he1, h1⟩ := exec_ranHealthy (i := .setBit (if b then 0b01#2 else 0b00#2)) (ts := [.write .data b])
    (ds := List.replicate 3 (some .ok) ++ ds) hr (by simp [opcodeOf]) (by simp [opcodeOf])
    (by simp [ownCheck, checkSetBit, hsym]) (by simp [preparedRegs, prepareOf, prepareSetBit, hsym])
    (List.cons_ne_nil _ _) hd
  have hd1 : s1.draws = List.replicate 3 (some .ok) ++ ds := h1.draws _ hd
  obtain ⟨s2, he2, h2⟩ := exec_ranHealthy (i := .shift) (ts := pulse .shcp) (ds := List.replicate 1 (some .ok) ++ ds)
    h1.ready (by decide) (by decide) rfl rfl (List.cons_ne_nil _ _) hd1
  have hd2 : s2.draws = List.replicate 1 (some .ok) ++ ds := h2.draws _ hd1
  obtain ⟨s3, he3, h3⟩ := exec_ranHealthy (i := .clearData) (ts := [.write .data false]) (ds := ds)
    h2.ready (by decide) (by decide) rfl rfl (List.cons_ne_nil _ _) hd2
  exact ⟨s3, fun f => by rw [rawLoad, he1]; dsimp only; rw [he2]; dsimp only; rw [he3], (h1.trans h2).trans h3⟩

/-- The raw protocol of a frame issues the transactions of its load (41_bit_protocol R147). -/
theorem rawLoad_ranHealthy (f : List Bool) {s : State} {ds : List (Option Answer)} (hr : ReadyForCommand s)
    (hd : s.draws = List.replicate (4 * f.length) (some .ok) ++ ds) :
    ∃ t, rawLoad f s = some t ∧ RanHealthy (3 * f.length) (loadSeq f) s t := by
  induction f generalizing s with
  | nil => exact ⟨s, rfl, hr, fun ds hd => hd, by simp [okTrace, loadSeq], rfl, rfl, rfl, rfl, rfl⟩
  | cons b f ih =>
    have hd' : s.draws = List.replicate 4 (some .ok) ++ (List.replicate (4 * f.length) (some .ok) ++ ds) := by
      rw [hd, ← List.append_assoc, ← List.replicate_add, List.length_cons, Nat.mul_succ, Nat.add_comm]
    obtain ⟨s1, he, h1⟩ := rawLoad_cons (b := b) hr hd'
    obtain ⟨t, ht, h2⟩ := ih h1.ready (h1.draws _ hd')
    refine ⟨t, (he f).trans ht, ?_⟩
    have h := h1.trans h2
    rw [Nat.add_comm, ← Nat.mul_succ] at h
    exact h

/-- Settles O51: both run the same transactions, every answer OK, in three commands an element (`rawLoad_ranHealthy`)
and in one (`exec_ranHealthy`). -/
theorem rawProtocolEqualsLoad : Obligations.RawProtocolEqualsLoad := by
  unfold Obligations.RawProtocolEqualsLoad
  intro s f p ds hr hw hf hp hd
  have hne : f ≠ [] := List.ne_nil_of_length_pos (by omega)
  rw [← hf] at hd
  have hbits : frameBits s.regs.width p = f := hf ▸ hp.frameBits
  obtain ⟨t, ht, hraw⟩ := rawLoad_ranHealthy f hr hd
  obtain ⟨u, hu, hload⟩ := exec_ranHealthy (i := .loadFrame s.regs.cfgWidth p) (ts := loadSeq f) hr
    (by simp [opcodeOf]) (by simp [opcodeOf]) (by simp [ownCheck, checkLoadFrame, ← hf, hp.frameValid])
    (congrArg loadSeq hbits) (loadSeq_ne_nil hne) (by rw [loadSeq_length]; exact hd)
  refine ⟨t, u, ht, hu, by rw [hraw.trace, hload.trace], by rw [hraw.dev, hload.dev],
    fun role => by rw [hraw.lvl, hload.lvl], ?_, ?_⟩
  · rw [hraw.cycle, loadSeq_length, hf]
  · rw [hload.cycle, loadSeq_length, hf]

/-! ### A rendered frame: 45_host_sequencer R184 -/

@[simp] theorem orient_length (dir : Dir) (f : List Bool) : (orient dir f).length = f.length := by
  cases dir <;> simp [orient]

/-- `LOAD_FRAME F` for a frame of the configured width (30_encoding R105). -/
theorem loadInstr_eq {s : State} {f : List Bool} (hf : f.length = s.regs.width) :
    loadInstr f = .loadFrame s.regs.cfgWidth (payloadOf f) := by
  rw [loadInstr, hf, Regs.width, BitVec.ofNat_toNat, BitVec.setWidth_eq]

/-- Settles O55: a load, a store, a clear and a store on a healthy backend, each from the lines idle and the block ready
as the one before leaves them (`exec_loadFrame_healthy`, `exec_store_healthy`, `exec_clear_healthy`). -/
theorem renderFrameShowsThenBlanks : Obligations.RenderFrameShowsThenBlanks := by
  unfold Obligations.RenderFrameShowsThenBlanks
  intro s f dir d hr hw hf ⟨hsr, hq⟩ ⟨hshcp, hstcp, hpwr⟩ hhold
  refine ⟨rfl, rfl, rfl, fun hh => ?_⟩
  have hg : (orient dir f).length = s.regs.width := (orient_length dir f).trans hf
  generalize orient dir f = g at hg
  have hcarry : CarriesFrame g (payloadOf g) := carriesFrame_payloadOf (by
    have : s.regs.width < 2 ^ 8 := s.regs.cfgWidth.isLt
    omega)
  rw [loadInstr_eq hg]
  obtain ⟨s1, hload, hregs1, hdev1, _, hsame1⟩ := exec_loadFrame_healthy hr hw hg hcarry hh
  have hd1 := hdev1 hsr hshcp hpwr
  have hr1 : ReadyForCommand s1 := readyForCommand_of_same hr hsame1 (by rw [hregs1]) (by rw [hregs1])
  refine ⟨s1, hload, by rw [hd1], fun hh1 => ?_⟩
  obtain ⟨s2, hstore, hregs2, hdev2, _, hsame2⟩ := exec_store_healthy hr1 hh1
  have hd2 := hdev2 (by rw [hd1]; exact hstcp)
  rw [hd1] at hd2
  have hr2 : ReadyForCommand s2 := readyForCommand_of_same hr1 hsame2 (by rw [hregs2]) (by rw [hregs2])
  have hcfg2 : s2.regs.cfgPwrEn = s.regs.cfgPwrEn ∧ s2.regs.width = s.regs.width := by
    simp [hregs2, hregs1, Regs.width]
  obtain ⟨hpwrEn2, hwidth2⟩ := hcfg2
  refine ⟨s2, hstore, by rw [hd2, ← hg]; exact take_cellsOf_reverse g, fun hh2 => ?_⟩
  obtain ⟨s3, hclear, hregs3, hdev3, _, hsame3⟩ := exec_clear_healthy hr2 (fun _ => hwidth2 ▸ hw)
    (by rw [hpwrEn2, hwidth2]; exact hh2)
  have hhold2 : s2.params.pwrQ = .hold := by
    obtain ⟨_, hp1, _⟩ := hsame1
    obtain ⟨_, hp2, _⟩ := hsame2
    rw [hp2, hp1, hhold]
  have hd3 := hdev3 (fun _ => by rw [hd2, hwidth2]; simp [cellsOf, hg]) (by rw [hd2]; exact hshcp)
  rw [hhold2, if_neg (by simp)] at hd3
  have hr3 : ReadyForCommand s3 := readyForCommand_of_same hr2 hsame3 (by rw [hregs3]) (by rw [hregs3])
  refine ⟨s3, hclear, by rw [hd3, hd2, ← hg]; exact take_cellsOf_reverse g, fun hh3 => ?_⟩
  obtain ⟨s4, hstore', _, hdev4, _, _⟩ := exec_store_healthy hr3 hh3
  refine ⟨s4, hstore', ?_⟩
  rw [hdev4 (by rw [hd3, hd2]; exact hstcp), hd3, hd2]
  simp [Device.out, cellsOf, hg]

end Sys2Proof.Machine

/-! ### The frames of the pattern loops: 45_host_sequencer R186 to R190 -/

namespace Sys2Proof.Machine

/-- A loop over rising indices, from a closed form of the working frame after each turn. -/
theorem sweep_range {update : Nat → List Bool → List Bool} (F : Nat → List Bool) (w : Nat)
    (h : ∀ k, k < w → update k (F k) = F (k + 1)) :
    sweep update (List.range w) (F 0) = (List.range w).map fun k => F (k + 1) := by
  have loop (n a : Nat) (ha : a + n ≤ w) :
      sweep update (List.range' a n) (F a) = (List.range' a n).map fun k => F (k + 1) := by
    induction n generalizing a with
    | zero => rfl
    | succ n ih => rw [List.range'_succ, sweep, h a (by omega), ih (a + 1) (by omega), List.map_cons]
  rw [List.range_eq_range']
  exact loop w 0 (by omega)

/-- The frame of width `w` whose element `i` is `g i` (00_scope R11). -/
def frameOf (w : Nat) (g : Nat → Bool) : List Bool := (List.range w).map g

/-- Writing one element of a frame. -/
theorem frameOf_set (w : Nat) (g : Nat → Bool) (k : Nat) (v : Bool) :
    (frameOf w g).set k v = frameOf w (Function.update g k v) := by
  apply List.ext_getElem (by simp [frameOf])
  intro i h1 h2
  simp [frameOf, List.getElem_set, Function.update_apply, eq_comm]

theorem frameOf_congr {w : Nat} {g g' : Nat → Bool} (h : ∀ i, i < w → g i = g' i) : frameOf w g = frameOf w g' :=
  List.map_congr_left fun i hi => h i (List.mem_range.mp hi)

theorem replicate_eq_frameOf (w : Nat) (v : Bool) : List.replicate w v = frameOf w fun _ => v := by
  simp [frameOf]

/-- `A_k[i] = 1 iff i ≤ k` (45_host_sequencer R186). -/
theorem risingFrames_eq (w : Nat) : risingFrames w = (List.range w).map fun k => frameOf w fun i => decide (i ≤ k) := by
  have hstep (k : Nat) (hk : k < w) : (frameOf w fun i => decide (i < k)).set k true =
      frameOf w fun i => decide (i < k + 1) := by
    rw [frameOf_set]
    refine frameOf_congr fun i _ => ?_
    by_cases hi : i = k
    · simp [hi]
    · simp only [Function.update_of_ne hi, decide_eq_decide]
      omega
  have hzero : zeros w = frameOf w fun i => decide (i < 0) := by simp [zeros, replicate_eq_frameOf]
  rw [risingFrames, hzero, sweep_range (fun k => frameOf w fun i => decide (i < k)) w hstep]
  simp only [Nat.lt_succ_iff]

/-- `D_j[i] = 1 iff i > j` (45_host_sequencer R187). -/
theorem fallingFrames_eq (w : Nat) :
    fallingFrames w = (List.range w).map fun j => frameOf w fun i => decide (j < i) := by
  have hstep (k : Nat) (hk : k < w) : (frameOf w fun i => decide (k ≤ i)).set k false =
      frameOf w fun i => decide (k + 1 ≤ i) := by
    rw [frameOf_set]
    refine frameOf_congr fun i _ => ?_
    by_cases hi : i = k
    · simp [hi]
    · simp only [Function.update_of_ne hi, decide_eq_decide]
      omega
  have hones : List.replicate w true = frameOf w fun i => decide (0 ≤ i) := by simp [replicate_eq_frameOf]
  rw [fallingFrames, hones]
  exact sweep_range (fun k => frameOf w fun i => decide (k ≤ i)) w hstep

/-- `B_k[i] = 1 iff i = k`, then the zero frame (45_host_sequencer R189). -/
theorem bitRunFrames_eq (w : Nat) :
    bitRunFrames w = ((List.range w).map fun k => frameOf w fun i => decide (i = k)) ++ [List.replicate w false] := by
  have hlight (k : Nat) : (zeros w).set k true = frameOf w fun i => decide (i = k) := by
    rw [zeros, replicate_eq_frameOf, frameOf_set]
    refine frameOf_congr fun i _ => ?_
    by_cases hi : i = k
    · simp [hi]
    · simp [hi]
  simp only [bitRunFrames, hlight]
  rfl

/-- `S_x[i] = 1 iff i = x - (x mod 2)` (45_host_sequencer R190): an even turn moves the light two places on, an odd one
clears a dark place. -/
theorem skipFrames_eq (w : Nat) :
    skipFrames w = (List.range w).map fun x => frameOf w fun i => decide (i = x - x % 2) := by
  have hstep (x : Nat) (hx : x < w) : skipUpdate x (frameOf w fun i => decide (0 < x ∧ i = x - 1 - (x - 1) % 2)) =
      frameOf w fun i => decide (0 < x + 1 ∧ i = x - x % 2) := by
    unfold skipUpdate
    split_ifs with heven hbig <;> simp only [frameOf_set] <;> refine frameOf_congr fun i _ => ?_
    · by_cases h2 : i = x - 2
      · simp only [h2, Function.update_self, false_eq_decide_iff]
        omega
      · by_cases hi : i = x
        · rw [Function.update_of_ne h2, hi, Function.update_self, eq_comm, decide_eq_true_eq]
          omega
        · simp only [Function.update_of_ne h2, Function.update_of_ne hi, decide_eq_decide]
          omega
    · obtain rfl : x = 0 := by omega
      by_cases hi : i = 0 <;> simp [hi]
    · by_cases hi : i = x
      · simp only [hi, Function.update_self, false_eq_decide_iff]
        omega
      · simp only [Function.update_of_ne hi, decide_eq_decide]
        omega
  have hzero : zeros w = frameOf w fun i => decide (0 < 0 ∧ i = 0 - 1 - (0 - 1) % 2) := by
    simp [zeros, replicate_eq_frameOf]
  rw [skipFrames, hzero, sweep_range (fun x => frameOf w fun i => decide (0 < x ∧ i = x - 1 - (x - 1) % 2)) w hstep]
  simp

/-- The last of the rising frames is all ones (45_host_sequencer R186). -/
theorem risingFrames_eq_append {w : Nat} (hw : 0 < w) :
    risingFrames w = (risingFrames w).take (w - 1) ++ [List.replicate w true] := by
  obtain ⟨n, rfl⟩ : ∃ n, w = n + 1 := ⟨w - 1, by omega⟩
  have hlast : (frameOf (n + 1) fun i => decide (i ≤ n)) = List.replicate (n + 1) true := by
    rw [replicate_eq_frameOf]
    exact frameOf_congr fun i hi => by simp; omega
  rw [risingFrames_eq, List.range_succ, List.map_append, List.map_singleton, hlast, Nat.add_sub_cancel,
    List.take_left' (by simp)]

/-- Settles O53: the closed forms of the loops, and of the persisting `fillBar`, whose last frame is left lit
(`fillBarActs_true`, `risingFrames_eq_append`). -/
theorem patternFrames : Obligations.PatternFrames := by
  unfold Obligations.PatternFrames
  intro w dir d
  refine ⟨risingFrames_eq w, fallingFrames_eq w, bitRunFrames_eq w, skipFrames_eq w, fillBarActs_false w dir d,
    ?persist, rfl, List.map_append, rfl, rfl⟩
  rcases Nat.eq_zero_or_pos w with rfl | hw
  · rfl
  · rw [if_neg hw.ne']
    exact fillBarActs_true (risingFrames_eq_append hw) dir d

end Sys2Proof.Machine

/-! ### The host: 45_host_sequencer R181 to R195, 70_reset_and_hazards R252 to R262 -/

namespace Sys2Proof.Machine

/-- The step of a ready block with nothing on the port (60_exceptions R223). -/
theorem step_idle {s : State} (hr : s.cmdReady = true) (hv : s.port.cmdValid = false) :
    step s = .next (idleEdge s) := by
  obtain ⟨hb, hl⟩ := (cmdReady_iff s).mp hr
  simp [step, hb, hl, hv]

theorem hostSees_iff {s : State} {code : Status} : HostSees code s ↔ hostSees s.regs s.host = some code :=
  hostSees_eq_some.symm

/-- The host after the response it waits for. -/
theorem hostReceive_of_sees {s : State} {code : Status} (h : HostSees code s) :
    hostReceive s.regs s.host = hostResponse code s.regs.life (hostNote s.regs s.host) := by
  rw [hostReceive, hostSees_iff.mp h]

/-- A failed response in a program or a shutdown ends it (45_host_sequencer R183, R194). -/
theorem hostResponse_failed {code : Status} (hc : code ≠ .ok) (l : Life) {h : HostAgent}
    (hs : h.stage = .running ∨ h.stage = .shutdown) :
    hostResponse code l h = { h with stage := .releasing, plan := [], holdLeft := 0, reported := some code } := by
  rcases hs with hs | hs <;> simp [hostResponse, hs, hc]

/-- The release duty issues RELEASE where the lines are claimed, or no reset left any (45_host_sequencer R194). -/
theorem hostRelease_release {claimed : Bool} {h : HostAgent} (hc : claimed = true ∨ h.cut = []) :
    hostRelease claimed h = ({ h with awaiting := true, inited := false }, some (encode .release)) := by
  unfold hostRelease
  split
  · rename_i c l hcut
    simp [hcut] at hc
  · rfl

/-- Where nothing is claimed and a reset left lines claimed, it issues their INIT (70_reset_and_hazards R262). -/
theorem hostRelease_init {h : HostAgent} {c : HostConfig} {l : List HostConfig} (hc : h.cut = c :: l) :
    hostRelease false h = ({ h with awaiting := true, inited := true }, some (encode (hostInit c))) := by
  simp [hostRelease, hc]

/-- The host in its release duty. -/
theorem hostAct_releasing (pr : Params) (claimed : Bool) {h : HostAgent} (ha : h.awaiting = false)
    (hs : h.stage = .releasing) : hostAct pr claimed h = hostRelease claimed h := by
  simp [hostAct, ha, hs]

/-- The command a host presents is what the block reads from the port (30_encoding R112). -/
theorem fetchCommand_of_presents {s t : State} {i : Instr} (ht : t.port = presentCmd (some (encode i)) s.port)
    (hi : ∀ len p, i ≠ .loadFrame len p) : fetchCommand t = .ok i := by
  rw [fetchCommand, ht]
  exact decode_encode_fst fun len p h => absurd h (hi len p)

/-- Settles O57: the failed response sends the host to its release duty (`hostResponse_failed`), whose command it
presents at the same edge (`hostRelease_release`, `hostRelease_init`). -/
theorem hostReleasesOnFailure : Obligations.HostReleasesOnFailure := by
  unfold Obligations.HostReleasesOnFailure
  intro s code hr hv hsees hc hst
  have hreceive := hostReceive_of_sees hsees
  rw [hostResponse_failed hc _ (h := hostNote s.regs s.host) hst] at hreceive
  have hact := hostAct_releasing s.params s.regs.claimed (h := hostReceive s.regs s.host)
    (by rw [hreceive]; rfl) (by rw [hreceive])
  have hcut : (hostReceive s.regs s.host).cut = leftClaimed s.regs s.host.cut := by rw [hreceive]; rfl
  have hhost : (idleEdge s).host = (hostRelease s.regs.claimed (hostReceive s.regs s.host)).1 := by
    rw [idleEdge_host, hact]
  have hport : (idleEdge s).port = presentCmd (hostRelease s.regs.claimed (hostReceive s.regs s.host)).2 s.port := by
    rw [idleEdge_port, hact]
  have hduty : (idleEdge s).host.plan = [] ∧ (idleEdge s).host.stage = .releasing ∧
      (idleEdge s).host.reported = some code ∧ (idleEdge s).host.awaiting = true ∧
      (idleEdge s).port.cmdValid = true := by
    rw [hhost, hport]
    rcases hostRelease_cases s.regs.claimed (hostReceive s.regs s.host) with h | ⟨c, _, _, h⟩ <;> rw [h, hreceive] <;>
      exact ⟨rfl, rfl, rfl, rfl, rfl⟩
  obtain ⟨hplan, hstage, hreported, hawaiting, hvalid⟩ := hduty
  refine ⟨_, step_idle hr hv, hplan, hstage, hreported, hawaiting, hvalid, fun h => ?release, fun c l hcl h => ?init⟩
  case release =>
    have hleft : s.regs.claimed = true ∨ (hostReceive s.regs s.host).cut = [] := by
      refine h.imp_right fun hnil => ?_
      rw [hcut, hnil]
      simp [leftClaimed]
    rw [hostRelease_release hleft] at hport
    exact fetchCommand_of_presents (i := .release) hport (by simp)
  case init =>
    rw [leftClaimed_unclaimed hcl, h] at hcut
    rw [hcl, hostRelease_init hcut] at hport
    exact fetchCommand_of_presents (i := hostInit c) hport (by simp [hostInit])

/-- Settles O58: a running host that awaits nothing takes the interrupt at the idle edge. -/
theorem interruptStartsShutdown : Obligations.InterruptStartsShutdown := by
  unfold Obligations.InterruptStartsShutdown
  intro s hr hv ha hst hi
  have hact : hostAct s.params s.regs.claimed (hostReceive s.regs s.host) = (hostInterrupt s.params s.host, none) := by
    simp [hostAct, ha, hst, hi]
  have hhost : (idleEdge s).host = hostInterrupt s.params s.host := by rw [idleEdge_host, hact]
  have hport : (idleEdge s).port = s.port := by rw [idleEdge_port, hact]; rfl
  have hclear : cmdAct .clear = .cmd 0x0000_0000_0000_0007 0 :=
    congrArg (HostAct.cmd · 0) (by decide : (encode .clear).1 = 0x0000_0000_0000_0007)
  have hstore : cmdAct .store = .cmd 0x0000_0000_0000_0006 0 :=
    congrArg (HostAct.cmd · 0) (by decide : (encode .store).1 = 0x0000_0000_0000_0006)
  refine ⟨_, step_idle hr hv, by rw [hhost]; rfl, by rw [hhost]; rfl, by rw [hhost]; rfl, by rw [hport, hv], ?_⟩
  rw [hhost, ← hclear, ← hstore]
  rfl

/-- A step that is no idle edge and no edge in reset leaves the host alone, and the port but for a command accepted. -/
theorem step_host_cases {s t : State} (h : step s = .next t) :
    (0 < s.port.rstLow ∧ t = resetEdge s) ∨
    (s.port.rstLow = 0 ∧ s.regs.busy = true ∧ t.host = s.host ∧ t.port = s.port) ∨
    (s.cmdReady = true ∧ s.port.cmdValid = true ∧ t.host = s.host ∧ t.port = { s.port with cmdValid := false }) ∨
    (s.cmdReady = true ∧ s.port.cmdValid = false ∧ t = idleEdge s) := by
  rcases step_cases h with h | ⟨hl, hb, _, rfl⟩ | ⟨hr, hv, i, _, he⟩ | ⟨hr, hv, _, _, rfl⟩ | h
  · exact .inl h
  · obtain ⟨hhost, _, hport⟩ := runAnswers_surroundings (s.regs.seq.length - s.regs.k) s
    exact .inr (.inl ⟨hl, hb, hhost, hport⟩)
  · obtain ⟨hhost, _, hport⟩ := exec_sameSurroundings hr he
    exact .inr (.inr (.inl ⟨hr, hv, hhost, hport⟩))
  · exact .inr (.inr (.inl ⟨hr, hv, rfl, rfl⟩))
  · exact .inr (.inr (.inr h))

/-- A host that watches `DONE_VALID` waits for it (45_host_sequencer R181). -/
theorem hostReceive_waits {r : Regs} {h : HostAgent} (hr : h.readsStatus = false) (hd : r.doneValid = false) :
    hostReceive r h = h := by
  have hn : hostSees r h = none := by simp [hostSees, hr, hd]
  simp [hostReceive, hn, hr]

/-- A host that reads `LAST_STATUS` lets an edge pass (45_host_sequencer R195). -/
theorem hostReceive_misses {r : Regs} {h : HostAgent} {n : Nat} {ms : List Nat} (ha : h.awaiting = true)
    (hr : h.readsStatus = true) (hm : h.misses = (n + 1) :: ms) : hostReceive r h = { h with misses := n :: ms } := by
  have hn : hostSees r h = none := by simp [hostSees, ha, hr, hm]
  simp [hostReceive, hn, ha, hr, hm]

/-- A port on which the host presents nothing stays as it is; else the command stands there. -/
theorem idleEdge_port_cases (s : State) :
    ((hostAct s.params s.regs.claimed (hostReceive s.regs s.host)).2 = none ∧ (idleEdge s).port = s.port) ∨
      ∃ c, (hostAct s.params s.regs.claimed (hostReceive s.regs s.host)).2 = some c ∧
        (idleEdge s).port = { s.port with cmdValid := true, cmdHdr := c.1, cmdFrame := c.2 } := by
  rw [idleEdge_port]
  cases (hostAct s.params s.regs.claimed (hostReceive s.regs s.host)).2 with
  | none => exact .inl ⟨rfl, rfl⟩
  | some c => exact .inr ⟨c, rfl, rfl⟩

/-- Settles O56: by what a step is for the host (`step_host_cases`); at an idle edge by what it receives and presents
(`hostReceive_waits`, `hostReceive_misses`, `hostAct_presents`, `hostAct_silent`). -/
theorem hostWaitsAndHoldsItsCommand : Obligations.HostWaitsAndHoldsItsCommand := by
  unfold Obligations.HostWaitsAndHoldsItsCommand
  refine ⟨fun s t h hl ha hw => ?waits, fun s t n ms h hr hv ha hs hm => ?misses, fun s t h hv hv' => ?presents,
    fun s t h hl hv => ?inited, fun s t h hl => ?reset, fun s t h hr => ?holds⟩
  case waits =>
    rcases step_host_cases h with ⟨hp, _⟩ | ⟨_, _, hhost, hport⟩ | ⟨_, _, hhost, hport⟩ | ⟨hr, hv, rfl⟩
    · omega
    · exact ⟨hhost, fun hv => by rw [hport, hv]⟩
    · exact ⟨hhost, fun _ => by rw [hport]⟩
    · have hb : s.regs.busy = false := ((cmdReady_iff s).mp hr).1
      have hreceive : hostReceive s.regs s.host = s.host := by
        rcases hw with ⟨hs, hd⟩ | ⟨_, hw⟩
        · exact hostReceive_waits hs hd
        · simp [hb, hv] at hw
      rw [idleEdge_host, idleEdge_port, hreceive, hostAct_awaiting ha]
      exact ⟨rfl, id⟩
  case misses =>
    obtain rfl := Host.Outcome.next.inj ((step_idle hr hv).symm.trans h)
    rw [idleEdge_host, idleEdge_port, hostReceive_misses ha hs hm,
      hostAct_awaiting (h := { s.host with misses := n :: ms }) ha]
    exact ⟨rfl, rfl, rfl⟩
  case presents =>
    rcases step_host_cases h with ⟨_, rfl⟩ | ⟨_, _, _, hport⟩ | ⟨_, hvt, _, _⟩ | ⟨_, _, rfl⟩
    · simp [hv] at hv'
    · simp [hport, hv] at hv'
    · simp [hv] at hvt
    · rcases idleEdge_port_cases s with ⟨_, hport⟩ | ⟨c, hc, hport⟩
      · rw [hport, hv] at hv'
        cases hv'
      · obtain ⟨_, hawait, _, hop, hinit, _⟩ := hostAct_presents hc
        rw [hostReceive_inited] at hop
        rw [hport, idleEdge_host]
        exact ⟨hawait, hop, hinit⟩
  case inited =>
    rcases step_host_cases h with ⟨hp, _⟩ | ⟨_, _, hhost, _⟩ | ⟨_, _, hhost, _⟩ | ⟨_, hv0, rfl⟩
    · omega
    · rw [hhost]
    · rw [hhost]
    · rcases idleEdge_port_cases s with ⟨hc, _⟩ | ⟨c, _, hport⟩
      · obtain ⟨_, hinit, _⟩ := hostAct_silent hc
        rw [idleEdge_host, hinit, hostReceive_inited]
      · rw [hport, hv0] at hv
        simp at hv
  case reset =>
    obtain rfl := Host.Outcome.next.inj ((step_in_reset hl).symm.trans h)
    rw [resetEdge_host, hostReset_inited, hostReset_awaiting]
    simp [and_assoc]
  case holds =>
    rcases step_host_cases h with ⟨_, rfl⟩ | ⟨_, _, _, hport⟩ | ⟨hr', _⟩ | ⟨hr', _⟩
    · exact ⟨rfl, rfl, rfl⟩
    · rw [hport]
      exact ⟨rfl, rfl, rfl⟩
    · simp [hr] at hr'
    · simp [hr] at hr'

/-- What the host knows of its duty and of the lines after an idle edge (70_reset_and_hazards R259, R262). -/
theorem idleEdge_notes (s : State) :
    (idleEdge s).host.owes = (if (hostSees s.regs s.host).isSome then (hostNote s.regs s.host).owes else s.host.owes) ∧
      (idleEdge s).host.cut =
        (if (hostSees s.regs s.host).isSome then leftClaimed s.regs s.host.cut else s.host.cut) := by
  obtain ⟨howes, hcut⟩ := hostAct_notes s.params s.regs.claimed (hostReceive s.regs s.host)
  obtain ⟨howes', hcut'⟩ := hostReceive_notes s.regs s.host
  rw [idleEdge_host, howes, hcut]
  exact ⟨howes', hcut'⟩

/-- After an idle edge at which the host sees a response. -/
theorem idleEdge_notes_of_sees {s : State} {code : Status} (h : HostSees code s) :
    (idleEdge s).host.owes = (hostNote s.regs s.host).owes ∧
      (idleEdge s).host.cut = leftClaimed s.regs s.host.cut := by
  simpa [hostSees_iff.mp h] using idleEdge_notes s

/-- After an idle edge at which it sees none. -/
theorem idleEdge_notes_of_not_sees {s : State} (h : ¬ ∃ code, HostSees code s) :
    (idleEdge s).host.owes = s.host.owes ∧ (idleEdge s).host.cut = s.host.cut := by
  have hn : hostSees s.regs s.host = none := by
    rw [Option.eq_none_iff_forall_ne_some]
    exact fun code hc => h ⟨code, hostSees_iff.mpr hc⟩
  simpa [hn] using idleEdge_notes s

/-- A host that ends at an idle edge ends with the response it receives there. -/
theorem idleEdge_exited {s : State} (h : (idleEdge s).host.stage = .exited) :
    (hostReceive s.regs s.host).stage = .exited := by
  rw [idleEdge_host] at h
  cases hc : (hostAct s.params s.regs.claimed (hostReceive s.regs s.host)).2 with
  | none =>
    obtain ⟨_, _, hstage⟩ := hostAct_silent hc
    exact hstage h
  | some c =>
    obtain ⟨_, _, hstage, _⟩ := hostAct_presents hc
    exact hstage.symm.trans h

/-- The response at which no release is owed any more, if it is not RELEASED with no line left, found none owed and the
block not READY (70_reset_and_hazards R259). -/
theorem hostNote_owes_eq_false {r : Regs} {h : HostAgent} (hn : (hostNote r h).owes = false) :
    (r.life = .released ∧ leftClaimed r h.cut = []) ∨ (h.owes = false ∧ r.life ≠ .ready) := by
  have hno := mt (hostNote_owes r h).mpr (by simp [hn])
  cases ho : h.owes with
  | true => exact .inl (by simpa [ho] using hno)
  | false =>
    rw [ho] at hno
    tauto

/-- A host that ends does so at an idle edge (45_host_sequencer R194). -/
theorem step_exited {s t : State} (h : step s = .next t) (hx : t.host.stage = .exited) (hn : s.host.stage ≠ .exited) :
    s.cmdReady = true ∧ s.port.cmdValid = false ∧ t = idleEdge s := by
  rcases step_host_cases h with ⟨_, rfl⟩ | ⟨_, _, hhost, _⟩ | ⟨_, _, hhost, _⟩ | h
  · rw [resetEdge_host, hostReset_stage] at hx
    split_ifs at hx
    exact absurd hx hn
  · exact absurd (hhost ▸ hx) hn
  · exact absurd (hhost ▸ hx) hn
  · exact h

/-- Settles O59: the host ends with the response to a RELEASE (`hostReceive_exited`, and the invariant for `CUR_OP`),
and what it owes and what is left to it change at responses (`idleEdge_notes`) and resets (`hostReset_owes`,
`hostReset_cut`) alone. -/
theorem hostEndsOnlyAfterRelease : Obligations.HostEndsOnlyAfterRelease := by
  unfold Obligations.HostEndsOnlyAfterRelease
  intro s t hinv h
  refine ⟨fun hx hn => ?exits, fun hr hv hsees hl => ?owesResponse, fun hl hready => ?owesReset,
    fun ho ho' => ?released, fun hl hc => ?cutReset, fun c hc hc' => ?cutGone⟩
  case exits =>
    obtain ⟨hr, hv, rfl⟩ := step_exited h hx hn
    obtain ⟨hst, hinit, hleft, hdone, code, hcode⟩ := hostReceive_exited (idleEdge_exited hx) hn
    have hsees : HostSees code s := hostSees_iff.mpr hcode
    have hop : s.regs.curOp = 8 := by
      have hrel := hinv.releasing hst hsees.1
      rw [ReleaseUnderWay, if_neg (by simp [hinit])] at hrel
      rcases hrel with ⟨hv', _⟩ | ⟨_, hop⟩
      · simp [hv] at hv'
      · exact hop
    refine ⟨hst, hr, hv, hop, ⟨code, hsees⟩, (idleEdge_notes_of_sees hsees).2.trans hleft, ?_⟩
    rcases hdone with hl | ⟨howes, htries⟩
    · exact .inl hl
    · rcases hostNote_owes_eq_false howes with ⟨hl, _⟩ | ⟨ho, hl⟩
      · exact .inl hl
      · exact .inr ⟨ho, hl, htries⟩
  case owesResponse =>
    obtain ⟨code, hsees⟩ := hsees
    obtain rfl := Host.Outcome.next.inj ((step_idle hr hv).symm.trans h)
    rw [(idleEdge_notes_of_sees hsees).1, hostNote_owes]
    exact ⟨.inr hl, by simp [hl]⟩
  case owesReset =>
    obtain rfl := Host.Outcome.next.inj ((step_in_reset hl).symm.trans h)
    simp [hostReset_owes, hready]
  case released =>
    rcases step_host_cases h with ⟨_, rfl⟩ | ⟨_, _, hhost, _⟩ | ⟨_, _, hhost, _⟩ | ⟨hr, hv, rfl⟩
    · simp [hostReset_owes, ho] at ho'
    · simp [hhost, ho] at ho'
    · simp [hhost, ho] at ho'
    · by_cases hsees : ∃ code, HostSees code s
      · obtain ⟨code, hs⟩ := hsees
        obtain ⟨howes, hcut⟩ := idleEdge_notes_of_sees hs
        rcases hostNote_owes_eq_false (howes.symm.trans ho') with ⟨hl, hleft⟩ | ⟨hno, _⟩
        · exact ⟨hr, ⟨code, hs⟩, hl, hcut.trans hleft⟩
        · simp [ho] at hno
      · rw [(idleEdge_notes_of_not_sees hsees).1, ho] at ho'
        cases ho'
  case cutReset =>
    obtain rfl := Host.Outcome.next.inj ((step_in_reset hl).symm.trans h)
    simp [hostReset_cut, hc]
  case cutGone =>
    have gone (hno : c ∉ leftClaimed s.regs s.host.cut) :
        s.regs.claimed = true ∧ c.lines ⊆ s.regs.hostConfig.lines := by
      rw [mem_leftClaimed, not_and, Classical.not_imp, not_not] at hno
      exact hno hc
    rcases step_host_cases h with ⟨_, rfl⟩ | ⟨_, _, hhost, _⟩ | ⟨_, _, hhost, _⟩ | ⟨hr, hv, rfl⟩
    · rw [resetEdge_host, hostReset_cut] at hc'
      split_ifs at hc' with hcl
      · exact gone fun hm => hc' (List.mem_cons_of_mem _ hm)
      · exact absurd hc hc'
    · exact absurd (hhost ▸ hc) hc'
    · exact absurd (hhost ▸ hc) hc'
    · by_cases hsees : ∃ code, HostSees code s
      · obtain ⟨code, hs⟩ := hsees
        rw [(idleEdge_notes_of_sees hs).2] at hc'
        exact gone hc'
      · rw [(idleEdge_notes_of_not_sees hsees).2] at hc'
        exact absurd hc hc'

end Sys2Proof.Machine
